-- ==== Sys2Proof/Word.lean ====
section
/-!
DEFINITION. The word types of the block: every value of the spec is an unsigned integer of a stated
width and its arithmetic wraps (00_scope.md R7), so a `uN` is a `BitVec N`.
-/

namespace Sys2Proof

/-- A u8 of 00_scope.md R7. -/
abbrev Byte := BitVec 8

/-- A u16 of 00_scope.md R7. -/
abbrev U16 := BitVec 16

/-- A u32 of 00_scope.md R7; also a time or a duration in microseconds (`T_BITS` = 32, R5). -/
abbrev U32 := BitVec 32

/-- A u64 of 00_scope.md R7. -/
abbrev U64 := BitVec 64

end Sys2Proof
end

