-- ==== Sys2Proof/Config.lean ====
section
/-!
DEFINITION. The named values of the spec (symbols, rates, commands), the implementation parameters of
00_scope.md R5, and the free values: constants without a body, of which nothing can be proved but
their type.
-/

namespace Sys2Proof

/-! ### Named values -/

/-- The symbol alphabet (30_encoding.md R60). -/
inductive Symbol where
  | zero
  | one
  | ackreq
  | invalid
  deriving DecidableEq, Repr, Inhabited

/-- The transfer rates, in the order of their codes 0 to 4 (30_encoding.md R73). A rate register holds
no other code (10_state.md R21), so the type has five values (40_timing_classifier.md R103). -/
inductive Rate where
  | fallback
  | fast
  | medium
  | slow
  | default
  deriving DecidableEq, Repr, Inhabited

/-- The nineteen commands, in the order of 30_encoding.md R65. -/
inductive Command where
  | ping
  | configTransferRate
  | binarySearch
  | cvRead
  | cvWrite
  | busy
  | zsuSalsa20Iv
  | zsuErase
  | zsuUpdate
  | zsuCrc32Start
  | zsuCrc32Result
  | zsuCrc32ResultExit
  | zppValidQuery
  | zppLcDcQuery
  | zppErase
  | zppUpdate
  | zppUpdateEnd
  | zppExit
  | zppExitReset
  deriving DecidableEq, Repr, Inhabited

/-- The five layers of encodings that the rows of the opcode table belong to (30_encoding.md, first
paragraph; `format` in `opcode_table.json`). -/
inductive Layer where
  | operation
  | edge
  | packet
  | position
  | rate
  deriving DecidableEq, Repr, Inhabited

/-! ### Operands that are records -/

/-- The configuration that `tx_init` takes (44_transmit_engine.md R180). The rate is the code as the
caller gives it: `tx_init` itself refuses a code above 4. -/
structure TxConfig where
  rate : Byte
  numPreamble : Byte
  numAckreq : Byte
  invert : Bool
  deriving DecidableEq, Repr, Inhabited

/-- The construction arguments of `reset` (70_reset_and_hazards.md R270). -/
structure ResetArgs where
  serialNumber : U32
  decoderId : U32
  transferRate : Rate
  txRate : Rate
  txNumPreamble : Byte
  txNumAckreq : Byte
  txInvert : Bool
  deriving DecidableEq, Repr, Inhabited

/-- Which components a `reset` constructs: all of them, or one (70_reset_and_hazards.md R270). -/
inductive ResetScope where
  | all
  | receive
  | transmit
  | entry
  deriving DecidableEq, Repr, Inhabited

/-- One input of the EntrySequenceDetector (30_encoding.md R75). -/
structure EntryPair where
  index : U32
  value : Byte
  deriving DecidableEq, Repr, Inhabited

/-- The three CV indices that an expected sequence may use (30_encoding.md R75, 46_entry_sequence.md
R226). -/
inductive EntryIndex where
  | cv7
  | cv104
  | cv105
  deriving DecidableEq, Repr, Inhabited

/-- What is open of an expected sequence outside its pairs 1 to 4, within the shape of 46_entry_sequence.md
R226: the index of pair 0, the index of pair 5, and which of the two other indices each of the pairs 6 to 8
takes after the one before it (pairs 7 and 8 are in the firmware/ZSU sequence only). -/
structure SequenceFrame where
  first : EntryIndex
  tail : EntryIndex
  turn6 : Bool
  turn7 : Bool
  turn8 : Bool
  deriving DecidableEq, Repr, Inhabited

/-- What is open of the pairs 1 to 4 of an expected sequence, within the shape of 46_entry_sequence.md R226:
their values, and which of the two other indices each takes after the one before it. -/
structure SequenceHeader where
  turn1 : Bool
  turn2 : Bool
  turn3 : Bool
  turn4 : Bool
  value1 : Byte
  value2 : Byte
  value3 : Byte
  value4 : Byte
  deriving DecidableEq, Repr, Inhabited

/-! ### Parameters -/

/-- One row of `TIMING`: nominal durations and window bounds, which the model takes as given and does
not compute (00_scope.md R5, 40_timing_classifier.md R101). -/
structure TimingRow where
  one : U32
  zero : U32
  ackreq : U32
  ack : U32
  oneMin : U32
  oneMax : U32
  zeroMin : U32
  zeroMax : U32
  ackreqMin : U32
  ackreqMax : U32
  deriving DecidableEq, Repr, Inhabited

/-- The table `TIMING`, one row per rate (`N_RATES` = 5, 00_scope.md R5). -/
structure Timing where
  fallback : TimingRow
  fast : TimingRow
  medium : TimingRow
  slow : TimingRow
  default : TimingRow
  deriving DecidableEq, Repr, Inhabited

/-- The command codes `CMD_*` (30_encoding.md R65). The source gives the two with a value here. -/
structure Codes where
  ping : U32 := 0xFFFFFFFF
  configTransferRate : U32
  binarySearch : U32
  cvRead : U32
  cvWrite : U32
  busy : U32 := 0xFFFFFFF2
  zsuSalsa20Iv : U32
  zsuErase : U32
  zsuUpdate : U32
  zsuCrc32Start : U32
  zsuCrc32Result : U32
  zsuCrc32ResultExit : U32
  zppValidQuery : U32
  zppLcDcQuery : U32
  zppErase : U32
  zppUpdate : U32
  zppUpdateEnd : U32
  zppExit : U32
  zppExitReset : U32
  deriving DecidableEq, Repr, Inhabited

/-- Which of the capabilities that may be absent the host has registered: an absent callback is not
called, an absent `ext_execute` answers false (70_reset_and_hazards.md R272, U16). -/
structure HostCaps where
  extExecute : Bool
  zppEntry : Bool
  zsuEntry : Bool
  trackOutputs : Bool
  ackreqBegin : Bool
  ackreqChannel1 : Bool
  ackreqChannel2 : Bool
  ackreqEnd : Bool
  deriving DecidableEq, Repr, Inhabited

/-- The answer of `ext_execute`: a Boolean, or no return at all (43_execute_dispatch.md R172, R173). -/
inductive ExtAnswer where
  | returns (b : Bool)
  | neverReturns
  deriving DecidableEq, Repr, Inhabited

/-- The implementation parameters of 00_scope.md R5 (and the host's registrations, R272). A field with a
default holds the value of R5; the others are OPEN there. No step changes a parameter (10_state.md
R33). `seqFw` lists the sequences `SEQ_FW(id)` of the ids it names; `seqFwFor` gives the others. A
configuration need not be well formed (R6, U2), so any pairs may stand here; the shape of
46_entry_sequence.md R226 is `SequencesInShape`, and the device's sequences have it. -/
structure Params where
  queueCap : Nat := 2
  pktCap : Nat := 268
  pktMin : Nat := 5
  preambleMin : Nat := 2
  crc32Cmds : List Command := [.zsuUpdate, .zppUpdate]
  codes : Codes
  timing : Timing
  seqZpp : Vector EntryPair 7
  seqFw : List (U32 × Vector EntryPair 9)
  host : HostCaps
  deriving DecidableEq, Repr, Inhabited

/-! ### OPEN values and free values (no body: nothing can be proved of them) -/

/-- `TIMING`, OPEN (00_scope.md R5, D4). DESIGN CHOICE, log 4: no value is chosen. Safe. -/
opaque Config.timing : Timing

/-- The seventeen command codes without a value in the source, OPEN (00_scope.md R5, D17). DESIGN
CHOICE, log 4: no value is chosen. Safe. -/
opaque Config.openCode : Command → U32

/-- The open indices of `SEQ_ZPP` (46_entry_sequence.md R226, D30). DESIGN CHOICE, log 5: no value is
chosen. Safe. -/
opaque Config.zppFrame : SequenceFrame

/-- The open pairs of `SEQ_ZPP` (46_entry_sequence.md R226, D30). DESIGN CHOICE, log 5: no value is chosen.
Safe. -/
opaque Config.zppHeader : SequenceHeader

/-- The open indices of `SEQ_FW(id)`, the same for every id (46_entry_sequence.md R226, D30). DESIGN CHOICE,
log 5: no value is chosen. Safe. -/
opaque Config.fwFrame : SequenceFrame

/-- The open pairs of `SEQ_FW(id)`, which may depend on the id (46_entry_sequence.md R226, D30). DESIGN
CHOICE, log 5: no value is chosen. Safe. -/
opaque Config.fwHeader : U32 → SequenceHeader

/-- The host's registrations (70_reset_and_hazards.md R272). DESIGN CHOICE, log 14: none is assumed. Safe. -/
opaque Config.host : HostCaps

/-- The construction arguments, OPEN (00_scope.md R5, D28, D32). DESIGN CHOICE, log 13: no value is
chosen. Safe. -/
opaque Config.construction : ResetArgs

/-- What `readCv` or `writeCv` answers at a draw (00_scope.md R9, U11). DESIGN CHOICE, log 6: free. Safe. -/
opaque Config.cvAnswer : Nat → Bool

/-- What `ext_execute` answers at a draw (00_scope.md R9, U11). DESIGN CHOICE, log 6: free. Safe. -/
opaque Config.extAnswer : Nat → ExtAnswer

/-- A byte of a buffer at an index at or above its length (10_state.md R15, R24, U4). DESIGN CHOICE,
log 9: free. Safe. -/
opaque Config.unwritten : Nat → Byte

/-- The command codes of the device: the two of the source, the others OPEN (30_encoding.md R65). -/
def Codes.device : Codes where
  configTransferRate := Config.openCode .configTransferRate
  binarySearch := Config.openCode .binarySearch
  cvRead := Config.openCode .cvRead
  cvWrite := Config.openCode .cvWrite
  zsuSalsa20Iv := Config.openCode .zsuSalsa20Iv
  zsuErase := Config.openCode .zsuErase
  zsuUpdate := Config.openCode .zsuUpdate
  zsuCrc32Start := Config.openCode .zsuCrc32Start
  zsuCrc32Result := Config.openCode .zsuCrc32Result
  zsuCrc32ResultExit := Config.openCode .zsuCrc32ResultExit
  zppValidQuery := Config.openCode .zppValidQuery
  zppLcDcQuery := Config.openCode .zppLcDcQuery
  zppErase := Config.openCode .zppErase
  zppUpdate := Config.openCode .zppUpdate
  zppUpdateEnd := Config.openCode .zppUpdateEnd
  zppExit := Config.openCode .zppExit
  zppExitReset := Config.openCode .zppExitReset

/-- The codes in the `match` column of `opcode_table.json`. PRESUMED, log 3: the table itself marks
seventeen of them as unverified candidates (93_implementation_defined.md G1). Only `decodeTableWord`,
`withFetchWord` and tests use them. Unsafe as a claim about a device. -/
def Codes.table : Codes where
  configTransferRate := 0xFFFFFFFE
  binarySearch := 0xFFFFFFFA
  cvRead := 0xFFFFFFF6
  cvWrite := 0xFFFFFFF9
  zsuSalsa20Iv := 0xFFFFFFF7
  zsuErase := 0xFFFFFFF5
  zsuUpdate := 0xFFFFFFF8
  zsuCrc32Start := 0xFFFFFFFB
  zsuCrc32Result := 0xFFFFFFFC
  zsuCrc32ResultExit := 0xFFFFFFFD
  zppValidQuery := 0xFFFFFF06
  zppLcDcQuery := 0xFFFFFF07
  zppErase := 0xFFFFFF05
  zppUpdate := 0xFFFFFF08
  zppUpdateEnd := 0xFFFFFF0B
  zppExit := 0xFFFFFF0C
  zppExitReset := 0xFFFFFF0D

end Sys2Proof
end

