-- ==== Sys2Proof/Machine/Device.lean ====
section
/-!
DEFINITION. The parameters of the device: what the spec fixes of them, around the constants without a body.
The expected sequences are built in the shape of 46_entry_sequence.md R226: only what R226 leaves open is open.
-/

namespace Sys2Proof

/-! ### Expected sequences (30_encoding.md R75, 46_entry_sequence.md R226) -/

/-- The CV index, 0-based. -/
def EntryIndex.cv : EntryIndex → U32
  | .cv7 => 7
  | .cv104 => 104
  | .cv105 => 105

/-- One of the two other indices: consecutive indices differ. -/
def EntryIndex.other : EntryIndex → Bool → EntryIndex
  | .cv7, up => if up then .cv105 else .cv104
  | .cv104, up => if up then .cv105 else .cv7
  | .cv105, up => if up then .cv104 else .cv7

/-- An index that differs from the one before it, `a`, and from the one after it, `b`: the choice `up` is
free where `a` and `b` are equal, and there is one such index where they differ. -/
def EntryIndex.between (a b : EntryIndex) (up : Bool) : EntryIndex :=
  if a.other false = b then a.other true
  else if a.other true = b then a.other false
  else a.other up

/-- The header of five pairs: pair 0 has the value that selects the sequence, pairs 1 to 4 are open. -/
def sequenceHeader (value0 : Byte) (f : SequenceFrame) (h : SequenceHeader) : Vector EntryPair 5 :=
  let i1 := f.first.other h.turn1
  let i2 := i1.other h.turn2
  let i3 := i2.other h.turn3
  let i4 := i3.between f.tail h.turn4
  #v[⟨f.first.cv, value0⟩, ⟨i1.cv, h.value1⟩, ⟨i2.cv, h.value2⟩, ⟨i3.cv, h.value3⟩, ⟨i4.cv, h.value4⟩]

/-- The all-zero tail of `SEQ_ZPP`: pairs 5 and 6. -/
def zppTail (f : SequenceFrame) : Vector EntryPair 2 :=
  #v[⟨f.tail.cv, 0⟩, ⟨(f.tail.other f.turn6).cv, 0⟩]

/-- The all-zero tail of `SEQ_FW(id)`: pairs 5 to 8. -/
def fwTail (f : SequenceFrame) : Vector EntryPair 4 :=
  let i6 := f.tail.other f.turn6
  let i7 := i6.other f.turn7
  #v[⟨f.tail.cv, 0⟩, ⟨i6.cv, 0⟩, ⟨i7.cv, 0⟩, ⟨(i7.other f.turn8).cv, 0⟩]

/-- `SEQ_ZPP`: 7 pairs, the first of value 0xFE. -/
def zppSequence (f : SequenceFrame) (h : SequenceHeader) : Vector EntryPair 7 :=
  sequenceHeader 0xFE f h ++ zppTail f

/-- `SEQ_FW(id)`: 9 pairs, the first of value 0xFF. -/
def fwSequence (f : SequenceFrame) (h : SequenceHeader) : Vector EntryPair 9 :=
  sequenceHeader 0xFF f h ++ fwTail f

/-- `SEQ_ZPP` of the device (log 5). -/
def Config.seqZpp : Vector EntryPair 7 := zppSequence Config.zppFrame Config.zppHeader

/-- `SEQ_FW(id)` of the device: pairs 1 to 4 may depend on the decoder id, the others do not (log 5). -/
def Config.seqFw (id : U32) : Vector EntryPair 9 := fwSequence Config.fwFrame (Config.fwHeader id)

/-! ### All parameters -/

/-- The parameters of the device: the values of 00_scope.md R5 where it gives one, OPEN elsewhere. -/
def Params.device : Params where
  codes := Codes.device
  timing := Config.timing
  seqZpp := Config.seqZpp
  seqFw := []
  host := Config.host

end Sys2Proof
end

