-- ==== Sys2Proof/Machine/Operands.lean ====
section
/-!
DEFINITION. The operand forms: byte order, the fields of a packet, the command, rate and position codes
(20_memory.md R42 to R49, 30_encoding.md R65 to R74).
-/

namespace Sys2Proof.Machine

/-! ### Byte order -/

/-- `be16` of two bytes, the first the more significant (00_scope.md R7). -/
def be16 (a b : Byte) : U16 := a ++ b

/-- `be32` of four bytes, the first the most significant (00_scope.md R7, 20_memory.md R43). -/
def be32 (a b c d : Byte) : U32 := a ++ b ++ c ++ d

/-- The two bytes of a u16, most significant first. -/
def be16Bytes (w : U16) : List Byte := [w.extractLsb' 8 8, w.extractLsb' 0 8]

/-- The four bytes of a u32, most significant first. -/
def be32Bytes (w : U32) : List Byte :=
  [w.extractLsb' 24 8, w.extractLsb' 16 8, w.extractLsb' 8 8, w.extractLsb' 0 8]

/-- Byte `i` of a buffer. At or above its length the byte has no meaning (10_state.md R15, R24): it is
the free value `Config.unwritten i` (log 9). -/
def byteAt (p : List Byte) (i : Nat) : Byte := p.getD i (Config.unwritten i)

/-- The command of a packet: `be32(p, 0)` (20_memory.md R43). -/
def commandWord (p : List Byte) : U32 := be32 (byteAt p 0) (byteAt p 1) (byteAt p 2) (byteAt p 3)

/-! ### Rates -/

/-- The code of a rate (30_encoding.md R73). -/
def rateCode : Rate → Nat
  | .fallback => 0
  | .fast => 1
  | .medium => 2
  | .slow => 3
  | .default => 4

/-- The byte that carries a rate code (30_encoding.md R73). -/
def rateByte (r : Rate) : Byte := BitVec.ofNat 8 (rateCode r)

/-- The rate a byte names; codes 5 to 255 are not rates (30_encoding.md R73). -/
def rateOfByte (b : Byte) : Option Rate :=
  match b.toNat with
  | 0 => some .fallback
  | 1 => some .fast
  | 2 => some .medium
  | 3 => some .slow
  | 4 => some .default
  | _ => none

/-! ### Commands -/

/-- The code of a command (30_encoding.md R65). -/
def commandCode (k : Codes) : Command → U32
  | .ping => k.ping
  | .configTransferRate => k.configTransferRate
  | .binarySearch => k.binarySearch
  | .cvRead => k.cvRead
  | .cvWrite => k.cvWrite
  | .busy => k.busy
  | .zsuSalsa20Iv => k.zsuSalsa20Iv
  | .zsuErase => k.zsuErase
  | .zsuUpdate => k.zsuUpdate
  | .zsuCrc32Start => k.zsuCrc32Start
  | .zsuCrc32Result => k.zsuCrc32Result
  | .zsuCrc32ResultExit => k.zsuCrc32ResultExit
  | .zppValidQuery => k.zppValidQuery
  | .zppLcDcQuery => k.zppLcDcQuery
  | .zppErase => k.zppErase
  | .zppUpdate => k.zppUpdate
  | .zppUpdateEnd => k.zppUpdateEnd
  | .zppExit => k.zppExit
  | .zppExitReset => k.zppExitReset

/-- The nineteen commands in the order in which codes are compared: 43_execute_dispatch.md R150 for the
first five, 30_encoding.md R65 for the rest. The order matters only where two codes are equal (U2). -/
def allCommands : List Command :=
  [.ping, .configTransferRate, .binarySearch, .cvRead, .cvWrite, .busy, .zsuSalsa20Iv, .zsuErase,
    .zsuUpdate, .zsuCrc32Start, .zsuCrc32Result, .zsuCrc32ResultExit, .zppValidQuery, .zppLcDcQuery,
    .zppErase, .zppUpdate, .zppUpdateEnd, .zppExit, .zppExitReset]

/-- The command a 32-bit code names, or none (43_execute_dispatch.md R150, R171). -/
def commandOfCode (k : Codes) (w : U32) : Option Command :=
  allCommands.find? fun c => commandCode k c == w

/-! ### Packet fields: each function gets the bytes after the command (20_memory.md R49) -/

/-- The qualifiers of a Ping, present when n >= 9 and n >= 13, and the bytes left (30_encoding.md
R66). -/
def splitPing : List Byte → Option U32 × Option U32 × List Byte
  | a :: b :: c :: d :: e :: f :: g :: h :: i :: rest => (some (be32 a b c d), some (be32 e f g h), i :: rest)
  | a :: b :: c :: d :: e :: rest => (some (be32 a b c d), none, e :: rest)
  | body => (none, none, body)

/-- The one-byte field of ConfigTransferRate and BinarySearch, present when n >= 6, and the bytes left
(30_encoding.md R67, R68). -/
def splitByte : List Byte → Option Byte × List Byte
  | a :: b :: rest => (some a, b :: rest)
  | body => (none, body)

/-- The CV number and the byte after it, present when n >= 8, and the bytes left (30_encoding.md R69,
R70). -/
def splitCv : List Byte → Option (U16 × Byte) × List Byte
  | a :: b :: v :: t :: rest => (some (be16 a b, v), t :: rest)
  | body => (none, body)

/-- The 0-based address of a 1-based CV number; number 0 wraps to 0xFFFF (43_execute_dispatch.md R155,
D23). -/
def cvAddress (number : U16) : U16 := number - 1

/-! ### Position codes -/

/-- A position code by its class (30_encoding.md R74). -/
inductive PositionCode where
  | newRound
  | noop (op : BitVec 2)
  | readBit (i : BitVec 6)
  | readComplement (i : BitVec 6)
  | pruneSet (i : BitVec 6)
  | pruneClear (i : BitVec 6)
  deriving DecidableEq, Repr

/-- The class of a position code: 255 first, then bit index 63, then bits 7 and 6 (45_arbitration.md
R211). -/
def positionOfByte (pos : Byte) : PositionCode :=
  if pos = 255 then .newRound
  else if pos.extractLsb' 0 6 = 63 then .noop (pos.extractLsb' 6 2)
  else if pos.extractLsb' 6 2 = 0 then .readBit (pos.extractLsb' 0 6)
  else if pos.extractLsb' 6 2 = 1 then .readComplement (pos.extractLsb' 0 6)
  else if pos.extractLsb' 6 2 = 2 then .pruneSet (pos.extractLsb' 0 6)
  else .pruneClear (pos.extractLsb' 0 6)

/-- The position code of a class and a bit index: bits 7 and 6, then bits 5 to 0 (30_encoding.md R74). -/
def positionByte (op : BitVec 2) (i : BitVec 6) : Byte := op ++ i

/-! ### Entry sequences -/

/-- `SEQ_FW(id)` (46_entry_sequence.md R226): as listed for the id, else the device's (log 5). -/
def seqFwFor (k : Params) (id : U32) : Vector EntryPair 9 := (k.seqFw.lookup id).getD (Config.seqFw id)

/-- The indices the detector heeds (46_entry_sequence.md R221). -/
def relevantIndex (idx : U32) : Bool := idx == 7 || idx == 104 || idx == 105

end Sys2Proof.Machine
end

