-- ==== Sys2Proof/Machine/Checksum.lean ====
section
/-!
DEFINITION. The two checksum functions (41_crc.md).
-/

namespace Sys2Proof.Machine

/-- One round of Crc8: shift right, feedback 0x8C from the bit that leaves (41_crc.md R110). -/
def crc8Round (c : Byte) : Byte := if c.getLsbD 0 then (c >>> 1) ^^^ 0x8C#8 else c >>> 1

/-- `crc8_next(c, b)`, 41_crc.md R110. -/
def crc8Next (c b : Byte) : Byte :=
  crc8Round (crc8Round (crc8Round (crc8Round
    (crc8Round (crc8Round (crc8Round (crc8Round (c ^^^ b))))))))

/-- The Crc8 register after folding a byte string into `c`, in order. -/
def crc8Fold (c : Byte) (p : List Byte) : Byte := p.foldl crc8Next c

/-- `crc8(s)`, 41_crc.md R111: from initial value 0. -/
def crc8Of (p : List Byte) : Byte := crc8Fold 0 p

/-- One bit of "Crc32": it enters at the least significant end, the feedback is taken from the bit that
leaves at the top (41_crc.md R112). -/
def crc32Bit (c : U32) (bit : Bool) : U32 :=
  let shifted : U32 := (c <<< 1) ||| (if bit then 1#32 else 0#32)
  if c.getLsbD 31 then shifted ^^^ 0x04C11DB7#32 else shifted

/-- `crc32_next(c, b)`, 41_crc.md R112: the byte from its most significant bit. -/
def crc32Next (c : U32) (b : Byte) : U32 :=
  crc32Bit (crc32Bit (crc32Bit (crc32Bit (crc32Bit (crc32Bit (crc32Bit (crc32Bit c
    (b.getLsbD 7)) (b.getLsbD 6)) (b.getLsbD 5)) (b.getLsbD 4)) (b.getLsbD 3)) (b.getLsbD 2))
    (b.getLsbD 1)) (b.getLsbD 0)

/-- The "Crc32" register after folding a byte string into `c`, in order. -/
def crc32Fold (c : U32) (p : List Byte) : U32 := p.foldl crc32Next c

/-- The "Crc32" register of a byte string, from the initial value 0xFFFFFFFF (41_crc.md R112, R113). -/
def crc32Of (p : List Byte) : U32 := crc32Fold 0xFFFFFFFF#32 p

/-- `crc32_value(c)`, 41_crc.md R113: four zero bytes appended; `c` itself is unchanged. -/
def crc32Value (c : U32) : U32 := crc32Fold c [0, 0, 0, 0]

end Sys2Proof.Machine
end

