-- ==== Sys2Proof/Machine/Classifier.lean ====
section
/-!
DEFINITION. The TimingClassifier: a pure function of its arguments and the table `TIMING`
(40_timing_classifier.md).
-/

namespace Sys2Proof.Machine

/-- `x in [lo, hi]`: the closed interval of 00_scope.md R7, on unsigned numbers (R105). -/
def inWindow (lo hi x : U32) : Bool := decide (lo ≤ x) && decide (x ≤ hi)

/-- The row of `TIMING` for a rate (30_encoding.md R73: the code is the row index). -/
def timingRow (tm : Timing) : Rate → TimingRow
  | .fallback => tm.fallback
  | .fast => tm.fast
  | .medium => tm.medium
  | .slow => tm.slow
  | .default => tm.default

/-- `t` lies in the zero window of the row. -/
def inZero (w : TimingRow) (t : U32) : Bool := inWindow w.zeroMin w.zeroMax t

/-- `t` lies in the one window of the row. -/
def inOne (w : TimingRow) (t : U32) : Bool := inWindow w.oneMin w.oneMax t

/-- `t` lies in the ackreq window of the row. -/
def inAckreq (w : TimingRow) (t : U32) : Bool := inWindow w.ackreqMin w.ackreqMax t

/-- `classify(t, r)`, 40_timing_classifier.md R100: the windows of row `r` and of the fallback row, zero
before one before ackreq. -/
def classify (tm : Timing) (t : U32) (r : Rate) : Symbol :=
  if inZero (timingRow tm r) t || inZero tm.fallback t then .zero
  else if inOne (timingRow tm r) t || inOne tm.fallback t then .one
  else if inAckreq (timingRow tm r) t || inAckreq tm.fallback t then .ackreq
  else .invalid

/-- `ack_duration(t, r)`, 40_timing_classifier.md R104: the fallback row wins where both windows hold
`t`. -/
def ackDuration (tm : Timing) (t : U32) (r : Rate) : U32 :=
  if inAckreq tm.fallback t then tm.fallback.ack else (timingRow tm r).ack

end Sys2Proof.Machine
end

