-- ==== Sys2Proof/Syntax.lean ====
section
/-!
DEFINITION. The instructions: one constructor for each row of `spec/opcode_table.json`, in its order. A
packet row carries the fields the block reads and, as `tail` or `body`, the bytes it passes on unread,
trailer included (20_memory.md R49); an absent field is one its packet is too short for.
-/

namespace Sys2Proof

/-- One constructor per row of the opcode table. -/
inductive Instr where
  /-- Ping: the qualifiers at bytes 4 and 8, present by length (30_encoding.md R66). -/
  | ping (serial : Option U32) (decoderId : Option U32) (tail : List Byte)
  /-- ConfigTransferRate: the rate byte (30_encoding.md R67). -/
  | configTransferRate (rate : Option Byte) (tail : List Byte)
  /-- BinarySearch: the position byte (30_encoding.md R68). -/
  | binarySearch (position : Option Byte) (tail : List Byte)
  /-- CvRead: the CV number and the position byte (30_encoding.md R69). -/
  | cvRead (fields : Option (U16 × Byte)) (tail : List Byte)
  /-- CvWrite: the CV number and the value (30_encoding.md R70). -/
  | cvWrite (fields : Option (U16 × Byte)) (tail : List Byte)
  /-- Busy (30_encoding.md R71). -/
  | busy (body : List Byte)
  /-- The delegated commands: payload and trailer, which the block does not read (30_encoding.md R72). -/
  | zsuSalsa20Iv (body : List Byte)
  | zsuErase (body : List Byte)
  | zsuUpdate (body : List Byte)
  | zsuCrc32Start (body : List Byte)
  | zsuCrc32Result (body : List Byte)
  | zsuCrc32ResultExit (body : List Byte)
  | zppValidQuery (body : List Byte)
  | zppLcDcQuery (body : List Byte)
  | zppErase (body : List Byte)
  | zppUpdate (body : List Byte)
  | zppUpdateEnd (body : List Byte)
  | zppExit (body : List Byte)
  | zppExitReset (body : List Byte)
  /-- A code that is none of the nineteen (43_execute_dispatch.md R171). -/
  | unlisted (cmd : U32) (body : List Byte)
  /-- An elapsed time that classifies as the symbol (30_encoding.md R60). -/
  | symZero (t : U32)
  | symOne (t : U32)
  | symAckreq (t : U32)
  | symInvalid (t : U32)
  /-- The classes of position codes, with the bit index in bits 5 to 0 (30_encoding.md R74). -/
  | posReadBit (i : BitVec 6)
  | posReadComplement (i : BitVec 6)
  | posPruneSet (i : BitVec 6)
  | posPruneClear (i : BitVec 6)
  | posNewRound
  /-- The codes 63, 127 and 191, with bits 7 and 6 as operand (30_encoding.md R74). -/
  | posNoop (op : BitVec 2)
  /-- The transfer-rate codes (30_encoding.md R73). -/
  | rateFallback
  | rateFast
  | rateMedium
  | rateSlow
  | rateDefault
  /-- The operations (00_scope.md R8), and `ack_duration` (40_timing_classifier.md R104). -/
  | reset (scope : ResetScope) (args : ResetArgs)
  | classify (t : U32) (r : Rate)
  | ackDuration (t : U32) (r : Rate)
  | crc8Next (c : Byte) (b : Byte)
  | crc32Next (c : U32) (b : Byte)
  | crc32Value (c : U32)
  | rxReceive (t : U32)
  | rxExecute
  | rxActive
  | arbRespond (pos : Byte)
  | entryWrite (idx : U32) (val : Byte)
  | txInit (c : TxConfig)
  | txSetTransferRate (r : Byte)
  | txPacket (p : List Byte)
  | txTransmit
  deriving DecidableEq, Repr

/-- The layer a row of the opcode table belongs to (its `format`). -/
def Instr.layer : Instr → Layer
  | .ping _ _ _ | .configTransferRate _ _ | .binarySearch _ _ | .cvRead _ _ | .cvWrite _ _ => .packet
  | .busy _ | .zsuSalsa20Iv _ | .zsuErase _ | .zsuUpdate _ | .zsuCrc32Start _ => .packet
  | .zsuCrc32Result _ | .zsuCrc32ResultExit _ | .zppValidQuery _ | .zppLcDcQuery _ => .packet
  | .zppErase _ | .zppUpdate _ | .zppUpdateEnd _ | .zppExit _ | .zppExitReset _ => .packet
  | .unlisted _ _ => .packet
  | .symZero _ | .symOne _ | .symAckreq _ | .symInvalid _ => .edge
  | .posReadBit _ | .posReadComplement _ | .posPruneSet _ | .posPruneClear _ => .position
  | .posNewRound | .posNoop _ => .position
  | .rateFallback | .rateFast | .rateMedium | .rateSlow | .rateDefault => .rate
  | .reset _ _ | .classify _ _ | .ackDuration _ _ | .crc8Next _ _ | .crc32Next _ _ => .operation
  | .crc32Value _ | .rxReceive _ | .rxExecute | .rxActive | .arbRespond _ => .operation
  | .entryWrite _ _ | .txInit _ | .txSetTransferRate _ | .txPacket _ | .txTransmit => .operation

end Sys2Proof
end

