-- ==== Sys2Proof/Decode.lean ====
section
/-!
DEFINITION. The decoder of each layer, total on any bytes and refusing by name, and the encoder. The
packet, edge, position and rate layers follow the spec's encodings; the bytes of an operation are the
model's own (log 1): a number in the table's order, then the operands, most significant byte first.
-/

namespace Sys2Proof

open Machine

/-- Why bytes encode no instruction of a layer. -/
inductive DecodeError where
  /-- An operation with no byte at all. -/
  | emptyRequest
  /-- An operation number above 14. -/
  | unknownOperation (code : Byte)
  /-- Too few or too many operand bytes for the operation. -/
  | operandCount
  /-- A rate operand above 4, where the operation is defined for 0 to 4 only (40_timing_classifier.md
  R103, 70_reset_and_hazards.md R270). -/
  | notARate (b : Byte)
  /-- A Boolean operand that is neither 0 nor 1. -/
  | notABoolean (b : Byte)
  /-- A reset scope above 3. -/
  | notAScope (b : Byte)
  /-- A packet of fewer than four bytes holds no command (30_encoding.md R63). -/
  | packetTooShort
  /-- An edge is one u32. -/
  | edgeLength
  /-- A position code is one byte. -/
  | positionLength
  /-- A rate code is one byte. -/
  | rateLength
  deriving DecidableEq, Repr

/-! ### Operations (the model's own numbering, log 1) -/

/-- The rate of an operand byte. -/
def decodeRateOperand (b : Byte) : Except DecodeError Rate :=
  match rateOfByte b with
  | some r => .ok r
  | none => .error (.notARate b)

/-- The Boolean of an operand byte. -/
def decodeBoolOperand (b : Byte) : Except DecodeError Bool :=
  if b = 0 then .ok false else if b = 1 then .ok true else .error (.notABoolean b)

/-- The component(s) a reset constructs (70_reset_and_hazards.md R270). -/
def decodeScopeOperand (b : Byte) : Except DecodeError ResetScope :=
  if b = 0 then .ok .all else if b = 1 then .ok .receive else if b = 2 then .ok .transmit
  else if b = 3 then .ok .entry else .error (.notAScope b)

/-- `reset`: scope, serial number, decoder id, rate, transmit rate, preamble and ackreq counts, invert. -/
def decodeReset : List Byte → Except DecodeError Instr
  | [sc, a, b, c, d, e, f, g, h, r, tr, np, na, iv] => do
    let scope ← decodeScopeOperand sc
    let rate ← decodeRateOperand r
    let txRate ← decodeRateOperand tr
    let invert ← decodeBoolOperand iv
    return .reset scope ⟨be32 a b c d, be32 e f g h, rate, txRate, np, na, invert⟩
  | _ => .error .operandCount

/-- `classify` and `ack_duration`: a time and a rate. -/
def decodeTimeRate (mk : U32 → Rate → Instr) : List Byte → Except DecodeError Instr
  | [a, b, c, d, r] => do
    let rate ← decodeRateOperand r
    return mk (be32 a b c d) rate
  | _ => .error .operandCount

/-- An operation of two byte operands. -/
def decodeByteByte (mk : Byte → Byte → Instr) : List Byte → Except DecodeError Instr
  | [a, b] => .ok (mk a b)
  | _ => .error .operandCount

/-- An operation of a u32 and a byte. -/
def decodeWordByte (mk : U32 → Byte → Instr) : List Byte → Except DecodeError Instr
  | [a, b, c, d, e] => .ok (mk (be32 a b c d) e)
  | _ => .error .operandCount

/-- An operation of one u32. -/
def decodeWordOperand (mk : U32 → Instr) : List Byte → Except DecodeError Instr
  | [a, b, c, d] => .ok (mk (be32 a b c d))
  | _ => .error .operandCount

/-- An operation of one byte. -/
def decodeByteOperand (mk : Byte → Instr) : List Byte → Except DecodeError Instr
  | [a] => .ok (mk a)
  | _ => .error .operandCount

/-- An operation without operands. -/
def decodeNoOperand (i : Instr) : List Byte → Except DecodeError Instr
  | [] => .ok i
  | _ => .error .operandCount

/-- `tx_init`: rate code, preamble count, ackreq count, invert. -/
def decodeTxInit : List Byte → Except DecodeError Instr
  | [r, np, na, iv] => do
    let invert ← decodeBoolOperand iv
    return .txInit ⟨r, np, na, invert⟩
  | _ => .error .operandCount

/-- The operation layer: the operation's number in the table's order, then its operands. -/
def decodeOperation : List Byte → Except DecodeError Instr
  | [] => .error .emptyRequest
  | op :: args =>
    match op.toNat with
    | 0 => decodeReset args
    | 1 => decodeTimeRate .classify args
    | 2 => decodeTimeRate .ackDuration args
    | 3 => decodeByteByte .crc8Next args
    | 4 => decodeWordByte .crc32Next args
    | 5 => decodeWordOperand .crc32Value args
    | 6 => decodeWordOperand .rxReceive args
    | 7 => decodeNoOperand .rxExecute args
    | 8 => decodeNoOperand .rxActive args
    | 9 => decodeByteOperand .arbRespond args
    | 10 => decodeWordByte .entryWrite args
    | 11 => decodeTxInit args
    | 12 => decodeByteOperand .txSetTransferRate args
    | 13 => .ok (.txPacket args)
    | 14 => decodeNoOperand .txTransmit args
    | _ => .error (.unknownOperation op)

/-! ### Packets -/

/-- The instruction of a command and the bytes after it (30_encoding.md R66 to R72). -/
def decodeCommand (w : U32) (body : List Byte) : Option Command → Instr
  | some .ping => .ping (splitPing body).1 (splitPing body).2.1 (splitPing body).2.2
  | some .configTransferRate => .configTransferRate (splitByte body).1 (splitByte body).2
  | some .binarySearch => .binarySearch (splitByte body).1 (splitByte body).2
  | some .cvRead => .cvRead (splitCv body).1 (splitCv body).2
  | some .cvWrite => .cvWrite (splitCv body).1 (splitCv body).2
  | some .busy => .busy body
  | some .zsuSalsa20Iv => .zsuSalsa20Iv body
  | some .zsuErase => .zsuErase body
  | some .zsuUpdate => .zsuUpdate body
  | some .zsuCrc32Start => .zsuCrc32Start body
  | some .zsuCrc32Result => .zsuCrc32Result body
  | some .zsuCrc32ResultExit => .zsuCrc32ResultExit body
  | some .zppValidQuery => .zppValidQuery body
  | some .zppLcDcQuery => .zppLcDcQuery body
  | some .zppErase => .zppErase body
  | some .zppUpdate => .zppUpdate body
  | some .zppUpdateEnd => .zppUpdateEnd body
  | some .zppExit => .zppExit body
  | some .zppExitReset => .zppExitReset body
  | none => .unlisted w body

/-- The packet layer: the command from bytes 0 to 3, the format from the command (30_encoding.md R63,
R76). -/
def decodePacket (k : Codes) : List Byte → Except DecodeError Instr
  | a :: b :: c :: d :: body =>
    .ok (decodeCommand (be32 a b c d) body (commandOfCode k (be32 a b c d)))
  | _ => .error .packetTooShort

/-! ### Symbols, position codes, rate codes -/

/-- The instruction of a symbol carried by an elapsed time (30_encoding.md R60). -/
def symbolInstr (t : U32) : Symbol → Instr
  | .zero => .symZero t
  | .one => .symOne t
  | .ackreq => .symAckreq t
  | .invalid => .symInvalid t

/-- The edge layer: an elapsed time classified at the rate in use (40_timing_classifier.md R100). -/
def decodeEdge (tm : Timing) (r : Rate) : List Byte → Except DecodeError Instr
  | [a, b, c, d] => .ok (symbolInstr (be32 a b c d) (classify tm (be32 a b c d) r))
  | _ => .error .edgeLength

/-- The instruction of a class of position codes (30_encoding.md R74). -/
def positionInstr : PositionCode → Instr
  | .newRound => .posNewRound
  | .noop op => .posNoop op
  | .readBit i => .posReadBit i
  | .readComplement i => .posReadComplement i
  | .pruneSet i => .posPruneSet i
  | .pruneClear i => .posPruneClear i

/-- The position layer: one byte (30_encoding.md R74). -/
def decodePosition : List Byte → Except DecodeError Instr
  | [b] => .ok (positionInstr (positionOfByte b))
  | _ => .error .positionLength

/-- The instruction of a rate (30_encoding.md R73). -/
def rateInstr : Rate → Instr
  | .fallback => .rateFallback
  | .fast => .rateFast
  | .medium => .rateMedium
  | .slow => .rateSlow
  | .default => .rateDefault

/-- The rate layer: one byte, 0 to 4 (30_encoding.md R73). -/
def decodeRate : List Byte → Except DecodeError Instr
  | [b] => (decodeRateOperand b).map rateInstr
  | _ => .error .rateLength

/-- The decoder: bytes of a layer to an instruction, under the parameters and the rate in use. -/
def decode (k : Params) (r : Rate) : Layer → List Byte → Except DecodeError Instr
  | .operation, p => decodeOperation p
  | .edge, p => decodeEdge k.timing r p
  | .packet, p => decodePacket k.codes p
  | .position, p => decodePosition p
  | .rate, p => decodeRate p

/-! ### The encoder -/

/-- A Boolean operand. -/
def boolByte (b : Bool) : Byte := if b then 1 else 0

/-- A reset scope operand. -/
def scopeByte : ResetScope → Byte
  | .all => 0
  | .receive => 1
  | .transmit => 2
  | .entry => 3

/-- The bytes of an optional field. -/
def optionBytes {α : Type} (f : α → List Byte) : Option α → List Byte
  | some x => f x
  | none => []

/-- The bytes of the fields of CvRead and CvWrite (30_encoding.md R69, R70). -/
def cvBytes (x : U16 × Byte) : List Byte := be16Bytes x.1 ++ [x.2]

/-- The operands of `reset`. -/
def resetBytes (sc : ResetScope) (a : ResetArgs) : List Byte :=
  [scopeByte sc] ++ be32Bytes a.serialNumber ++ be32Bytes a.decoderId
    ++ [rateByte a.transferRate, rateByte a.txRate, a.txNumPreamble, a.txNumAckreq, boolByte a.txInvert]

/-- The bytes of an instruction in its own layer, written from the same tables. -/
def encode (k : Codes) : Instr → List Byte
  | .ping sn did tail => be32Bytes k.ping ++ optionBytes be32Bytes sn ++ optionBytes be32Bytes did ++ tail
  | .configTransferRate rate tail => be32Bytes k.configTransferRate ++ rate.toList ++ tail
  | .binarySearch position tail => be32Bytes k.binarySearch ++ position.toList ++ tail
  | .cvRead fields tail => be32Bytes k.cvRead ++ optionBytes cvBytes fields ++ tail
  | .cvWrite fields tail => be32Bytes k.cvWrite ++ optionBytes cvBytes fields ++ tail
  | .busy body => be32Bytes k.busy ++ body
  | .zsuSalsa20Iv body => be32Bytes k.zsuSalsa20Iv ++ body
  | .zsuErase body => be32Bytes k.zsuErase ++ body
  | .zsuUpdate body => be32Bytes k.zsuUpdate ++ body
  | .zsuCrc32Start body => be32Bytes k.zsuCrc32Start ++ body
  | .zsuCrc32Result body => be32Bytes k.zsuCrc32Result ++ body
  | .zsuCrc32ResultExit body => be32Bytes k.zsuCrc32ResultExit ++ body
  | .zppValidQuery body => be32Bytes k.zppValidQuery ++ body
  | .zppLcDcQuery body => be32Bytes k.zppLcDcQuery ++ body
  | .zppErase body => be32Bytes k.zppErase ++ body
  | .zppUpdate body => be32Bytes k.zppUpdate ++ body
  | .zppUpdateEnd body => be32Bytes k.zppUpdateEnd ++ body
  | .zppExit body => be32Bytes k.zppExit ++ body
  | .zppExitReset body => be32Bytes k.zppExitReset ++ body
  | .unlisted cmd body => be32Bytes cmd ++ body
  | .symZero t => be32Bytes t
  | .symOne t => be32Bytes t
  | .symAckreq t => be32Bytes t
  | .symInvalid t => be32Bytes t
  | .posReadBit i => [positionByte 0 i]
  | .posReadComplement i => [positionByte 1 i]
  | .posPruneSet i => [positionByte 2 i]
  | .posPruneClear i => [positionByte 3 i]
  | .posNewRound => [positionByte 3 63]
  | .posNoop op => [positionByte op 63]
  | .rateFallback => [rateByte .fallback]
  | .rateFast => [rateByte .fast]
  | .rateMedium => [rateByte .medium]
  | .rateSlow => [rateByte .slow]
  | .rateDefault => [rateByte .default]
  | .reset sc a => 0 :: resetBytes sc a
  | .classify t r => 1 :: (be32Bytes t ++ [rateByte r])
  | .ackDuration t r => 2 :: (be32Bytes t ++ [rateByte r])
  | .crc8Next c b => [3, c, b]
  | .crc32Next c b => 4 :: (be32Bytes c ++ [b])
  | .crc32Value c => 5 :: be32Bytes c
  | .rxReceive t => 6 :: be32Bytes t
  | .rxExecute => [7]
  | .rxActive => [8]
  | .arbRespond pos => [9, pos]
  | .entryWrite idx val => 10 :: (be32Bytes idx ++ [val])
  | .txInit c => [11, c.rate, c.numPreamble, c.numAckreq, boolByte c.invert]
  | .txSetTransferRate r => [12, r]
  | .txPacket p => 13 :: p
  | .txTransmit => [14]

/-! ### One word of the opcode table -/

/-- The packet of a table word: the 32-bit command as the hardware stores it, most significant byte
first, and operand bytes of zeros up to 13 bytes, the longest format whose fields the block reads
(30_encoding.md R66; log 3). -/
def packetOfWord (w : Nat) : List Byte :=
  be32Bytes (BitVec.ofNat 32 w) ++ [0, 0, 0, 0, 0, 0, 0, 0, 0]

/-- The instruction read from a table word: 32 bits are a packet's command, under the table's codes; 8
bits are a rate code when below 5 and a position code otherwise, since the byte alone does not say
which (log 3); the table gives no other row any bits. -/
def decodeTableWord (nbits w : Nat) : Option Instr :=
  if nbits = 32 then (decodePacket Codes.table (packetOfWord w)).toOption
  else if nbits = 8 then
    if w < 5 then (decodeRate [BitVec.ofNat 8 w]).toOption
    else (decodePosition [BitVec.ofNat 8 w]).toOption
  else none

end Sys2Proof
end

