-- ==== Sys2Proof/Machine/State.lean ====
section
/-!
DEFINITION. The state of the block (10_state.md): plain data, every element of R10 to R31, beside the
model's own fields (parameters, outputs, the environment's pending inputs). And the state after reset.
-/

namespace Sys2Proof.Machine

/-- The states of the receive machine (10_state.md R10). -/
inductive RxState where
  | preamble
  | data
  | endBit
  | ackReq
  deriving DecidableEq, Repr, Inhabited

/-- The states of the TransmitEngine (10_state.md R23). -/
inductive TxState where
  | idle
  | preamble
  | packet
  | packetEnd
  | ackReq
  deriving DecidableEq, Repr, Inhabited

/-- The ReceiveEngine (10_state.md R10 to R22). `buf` is `rx_buf[0 .. rx_len-1]`: its length is `rx_len`
(log 9). -/
structure ReceiveEngine where
  state : RxState
  bitCount : Byte
  acc : Byte
  crc8 : Byte
  crc32 : U32
  buf : List Byte
  queue : List (List Byte)
  selected : Bool
  active : Bool
  nack : Bool
  ack : Bool
  serialNumber : U32
  decoderId : U32
  transferRate : Rate
  arbIgnore : Bool
  deriving DecidableEq, Repr, Inhabited

/-- The TransmitEngine (10_state.md R23 to R29). `pkt` is `tx_pkt[0 .. tx_len-1]`: its length is `tx_len`
(log 9); `bitIdx` is 8 while the start bit of the byte is pending. -/
structure TransmitEngine where
  state : TxState
  pkt : List Byte
  rate : Rate
  numPreamble : Byte
  numAckreq : Byte
  invert : Bool
  preCount : Byte
  ackCount : Byte
  byteIdx : Nat
  bitIdx : Fin 9
  polarity : Bool
  deriving DecidableEq, Repr, Inhabited

/-- The EntrySequenceDetector (10_state.md R30, R31). `buf` is `es_buf[0 .. es_len-1]` (log 9). -/
structure EntryDetector where
  buf : List EntryPair
  decoderId : U32
  deriving DecidableEq, Repr, Inhabited

/-- A call to a host capability (00_scope.md R9). -/
inductive HostCall where
  | ackbit (duration : U32)
  | readCv (addr : U16) (pos : Byte)
  | writeCv (addr : U16) (value : Byte)
  | extExecute (cmd : U32) (packet : List Byte) (decoderId : U32)
  | zppEntry
  | zsuEntry
  | ackreqBegin
  | ackreqChannel1 (n : Byte)
  | ackreqChannel2 (n : Byte)
  | ackreqEnd
  | trackOutputs (level : Bool)
  deriving DecidableEq, Repr, Inhabited

/-- The result of an operation (00_scope.md R8). -/
inductive OpResult where
  | none
  | bool (b : Bool)
  | symbol (x : Symbol)
  | byte (b : Byte)
  | word (w : U32)
  deriving DecidableEq, Repr, Inhabited

/-- The state of the machine. `rx`, `tx`, `es` are the spec's (10_state.md R34). The rest is the model's
own: the parameters, which no step changes; the result of the last operation; the trace of host calls;
whether a handler failed to return (R173); the operations issued and not yet run; the answers the
environment has fixed, and the numbers of free answers drawn (log 1, 4, 6, 7, 8). -/
structure State where
  params : Params
  rx : ReceiveEngine
  tx : TransmitEngine
  es : EntryDetector
  result : OpResult
  trace : List HostCall
  halted : Bool
  requests : List (List Byte)
  cvAnswers : List Bool
  extAnswers : List ExtAnswer
  cvDraws : Nat
  extDraws : Nat
  deriving DecidableEq, Repr

/-- Why the machine stops. -/
inductive Fault where
  /-- Raised by `step` when an operation other than `reset` is pending after a handler behind
  `ext_execute` did not return (43_execute_dispatch.md R173, U10: the run is over). Safe: it stops
  where the spec gives no behaviour. -/
  | stuckInHandler
  /-- Raised by `rx_execute` on a queued packet of fewer than four bytes, whose command is not defined;
  no run of a configuration with `PKT_MIN` >= 5 queues one (43_execute_dispatch.md R150). Safe. -/
  | queuedPacketTooShort
  deriving DecidableEq, Repr

/-- Why a request is turned away. -/
inductive Refusal where
  /-- An instruction without a meaning, by its mnemonic. No arm of `exec` answers so. Safe. -/
  | notModelled (mnemonic : String)
  /-- Raised by `step` on a request that encodes no operation (log 21). Safe. -/
  | undecodable (e : DecodeError)
  deriving DecidableEq, Repr

/-- The ReceiveEngine right after `reset` (10_state.md R36). -/
def ReceiveEngine.construct (a : ResetArgs) : ReceiveEngine where
  state := .preamble
  bitCount := 0
  acc := 0
  crc8 := 0
  crc32 := 0xFFFFFFFF
  buf := []
  queue := []
  selected := false
  active := false
  nack := false
  ack := false
  serialNumber := a.serialNumber
  decoderId := a.decoderId
  transferRate := a.transferRate
  arbIgnore := false

/-- The TransmitEngine right after `reset` (10_state.md R36). -/
def TransmitEngine.construct (a : ResetArgs) : TransmitEngine where
  state := .idle
  pkt := []
  rate := a.txRate
  numPreamble := a.txNumPreamble
  numAckreq := a.txNumAckreq
  invert := a.txInvert
  preCount := 0
  ackCount := 0
  byteIdx := 0
  bitIdx := 8
  polarity := false

/-- The EntrySequenceDetector right after `reset` (10_state.md R36). -/
def EntryDetector.construct (a : ResetArgs) : EntryDetector where
  buf := []
  decoderId := a.decoderId

/-- The machine right after reset (70_reset_and_hazards.md R270, R271), under the device's parameters and
its OPEN construction arguments; nothing has been issued, called or answered yet. -/
def State.reset : State where
  params := Params.device
  rx := ReceiveEngine.construct Config.construction
  tx := TransmitEngine.construct Config.construction
  es := EntryDetector.construct Config.construction
  result := .none
  trace := []
  halted := false
  requests := []
  cvAnswers := []
  extAnswers := []
  cvDraws := 0
  extDraws := 0

end Sys2Proof.Machine
end

