-- ==== Sys2Proof/Machine/Ops.lean ====
section
/-!
DEFINITION. The named operations that the meanings share: updates of the state, host calls and the free
answers, the packet buffer and queue (20_memory.md R45, R46), and `rx_reset`, which takes the place of
trap entry (60_exceptions.md R253; there is no return, R254).
-/

namespace Sys2Proof.Machine

/-! ### Updates -/

/-- The state with another ReceiveEngine. -/
def State.withRx (s : State) (rx : ReceiveEngine) : State := { s with rx := rx }

/-- The state with another TransmitEngine. -/
def State.withTx (s : State) (tx : TransmitEngine) : State := { s with tx := tx }

/-- The state with another EntrySequenceDetector. -/
def State.withEs (s : State) (es : EntryDetector) : State := { s with es := es }

/-- The operation is complete with the result `r` (00_scope.md R8). -/
def State.done (s : State) (r : OpResult) : State := { s with result := r }

/-- `rx_ack <- b`. -/
def State.withAck (s : State) (b : Bool) : State := s.withRx { s.rx with ack := b }

/-! ### Host calls -/

/-- Calls are recorded in the order they are made (20_memory.md R48). -/
def State.calls (s : State) (cs : List HostCall) : State := { s with trace := s.trace ++ cs }

/-- The calls made to a capability that may be absent (70_reset_and_hazards.md R272). -/
def ifRegistered (present : Bool) (c : HostCall) : List HostCall := if present then [c] else []

/-- The next answer of `readCv` or `writeCv`: the environment's, or a free value (log 6). -/
def State.cvAnswer (s : State) : Bool := s.cvAnswers.headD (Config.cvAnswer s.cvDraws)

/-- That answer has been given. -/
def State.dropCvAnswer (s : State) : State :=
  match s.cvAnswers with
  | [] => { s with cvDraws := s.cvDraws + 1 }
  | _ :: rest => { s with cvAnswers := rest }

/-- The next answer of `ext_execute`: the environment's, or a free value (log 6). -/
def State.extAnswer (s : State) : ExtAnswer := s.extAnswers.headD (Config.extAnswer s.extDraws)

/-- That answer has been given. -/
def State.dropExtAnswer (s : State) : State :=
  match s.extAnswers with
  | [] => { s with extDraws := s.extDraws + 1 }
  | _ :: rest => { s with extAnswers := rest }

/-- `rx_ack <- readCv(..)` or `rx_ack <- writeCv(..)`: one call, whose Boolean goes to channel 2
(43_execute_dispatch.md R155, R156). -/
def State.askCv (s : State) (c : HostCall) : State :=
  ((s.calls [c]).dropCvAnswer).withAck s.cvAnswer

/-- `rx_ack <- ext_execute(cmd, packet, cfg.decoder_id)` (43_execute_dispatch.md R172): one call with the
raw packet; an absent capability answers false (R272); a handler that does not return leaves `rx_ack`
unassigned and ends the run (R173). -/
def State.askExt (s : State) (cmd : U32) (packet : List Byte) : State :=
  if s.params.host.extExecute then
    match s.extAnswer with
    | .returns b => ((s.calls [.extExecute cmd packet s.rx.decoderId]).dropExtAnswer).withAck b
    | .neverReturns =>
      { (s.calls [.extExecute cmd packet s.rx.decoderId]).dropExtAnswer with halted := true }
  else s.withAck false

/-! ### The in-flight packet and the queue -/

/-- `sat_inc_8`, 00_scope.md R7. -/
def satInc8 (v : Byte) : Byte := if v = 255 then v else v + 1

/-- `rx_clear_frame()`, 42_receive_engine.md R122. -/
def ReceiveEngine.clearFrame (rx : ReceiveEngine) : ReceiveEngine :=
  { rx with bitCount := 0, acc := 0, crc8 := 0, crc32 := 0xFFFFFFFF, buf := [] }

/-- `rx_reset()`, 42_receive_engine.md R123: what every irregular input ends in (60_exceptions.md R253).
It saves nothing; it does not touch selection, activity, queue, configuration or arbitration. -/
def ReceiveEngine.restart (rx : ReceiveEngine) : ReceiveEngine :=
  { rx.clearFrame with state := .preamble, nack := false, ack := false }

/-- `BufAppend(b)`, 20_memory.md R45. -/
def ReceiveEngine.bufAppend (k : Params) (rx : ReceiveEngine) (b : Byte) : ReceiveEngine :=
  if rx.buf.length = k.pktCap then rx.restart else { rx with buf := rx.buf ++ [b] }

/-- `QueuePush(p)`, 20_memory.md R46: at the back. -/
def ReceiveEngine.queuePush (rx : ReceiveEngine) (p : List Byte) : ReceiveEngine :=
  { rx with queue := rx.queue ++ [p] }

/-- What `QueuePop()` leaves when the front packet has been taken, 20_memory.md R46. -/
def ReceiveEngine.queuePop (rx : ReceiveEngine) : ReceiveEngine := { rx with queue := rx.queue.tail }

end Sys2Proof.Machine
end

