-- ==== Sys2Proof/Machine/Arbitration.lean ====
section
/-!
DEFINITION. The Arbitration responder and the meanings of the position codes (45_arbitration.md). A
position code's answer is the operation's result; BinarySearch assigns it to `rx_ack` (log 11).
-/

namespace Sys2Proof.Machine

/-- The 64-bit identifier, decoder id above serial number (45_arbitration.md R210). -/
def ReceiveEngine.ident (rx : ReceiveEngine) : U64 := rx.decoderId ++ rx.serialNumber

/-- Bit `i` of the identifier. -/
def ReceiveEngine.identBit (rx : ReceiveEngine) (i : BitVec 6) : Bool := rx.ident.getLsbD i.toNat

/-- The answer of the responder to a position code (45_arbitration.md R211 to R218). -/
def ReceiveEngine.arbAnswer (rx : ReceiveEngine) : PositionCode → Bool
  | .newRound => true
  | .readBit i => !rx.arbIgnore && rx.identBit i
  | .readComplement i => !rx.arbIgnore && !rx.identBit i
  | .noop _ => false
  | .pruneSet _ => false
  | .pruneClear _ => false

/-- `arb_ignore` after a position code (45_arbitration.md R211 to R218). -/
def ReceiveEngine.arbIgnoreAfter (rx : ReceiveEngine) : PositionCode → Bool
  | .newRound => false
  | .readBit _ => rx.arbIgnore
  | .readComplement _ => rx.arbIgnore
  | .noop _ => rx.arbIgnore
  | .pruneSet i => rx.arbIgnore || rx.identBit i
  | .pruneClear i => rx.arbIgnore || !rx.identBit i

/-- The responder's state after a position code: `arb_ignore` is all it writes (45_arbitration.md R211). -/
def ReceiveEngine.arbitrate (rx : ReceiveEngine) (code : PositionCode) : ReceiveEngine :=
  { rx with arbIgnore := rx.arbIgnoreAfter code }

/-- `arb_respond` on a position code, with its answer as the result. -/
def State.respond (s : State) (code : PositionCode) : State :=
  (s.withRx (s.rx.arbitrate code)).done (.bool (s.rx.arbAnswer code))

/-- POS_READ_BIT, 45_arbitration.md R214. -/
def execPosReadBit (i : BitVec 6) (s : State) : Host.Outcome State Fault Refusal :=
  .next (s.respond (.readBit i))

/-- POS_READ_COMPLEMENT, 45_arbitration.md R215. -/
def execPosReadComplement (i : BitVec 6) (s : State) : Host.Outcome State Fault Refusal :=
  .next (s.respond (.readComplement i))

/-- POS_PRUNE_SET, 45_arbitration.md R216. -/
def execPosPruneSet (i : BitVec 6) (s : State) : Host.Outcome State Fault Refusal :=
  .next (s.respond (.pruneSet i))

/-- POS_PRUNE_CLEAR, 45_arbitration.md R217. -/
def execPosPruneClear (i : BitVec 6) (s : State) : Host.Outcome State Fault Refusal :=
  .next (s.respond (.pruneClear i))

/-- POS_NEW_ROUND, 45_arbitration.md R212. -/
def execPosNewRound (s : State) : Host.Outcome State Fault Refusal :=
  .next (s.respond .newRound)

/-- POS_NOOP, 45_arbitration.md R218. -/
def execPosNoop (op : BitVec 2) (s : State) : Host.Outcome State Fault Refusal :=
  .next (s.respond (.noop op))

/-- `arb_respond(pos)`, 45_arbitration.md R211: the code's class decides. -/
def execArbRespond (pos : Byte) (s : State) : Host.Outcome State Fault Refusal :=
  match positionOfByte pos with
  | .newRound => execPosNewRound s
  | .noop op => execPosNoop op s
  | .readBit i => execPosReadBit i s
  | .readComplement i => execPosReadComplement i s
  | .pruneSet i => execPosPruneSet i s
  | .pruneClear i => execPosPruneClear i s

end Sys2Proof.Machine
end

