-- ==== Sys2Proof/Machine/Rates.lean ====
section
/-!
DEFINITION. The meanings of the transfer-rate codes: the request for that rate that ConfigTransferRate
carries (30_encoding.md R73, 43_execute_dispatch.md R153; log 10). The gate of R153 stands in
`execConfigTransferRate`.
-/

namespace Sys2Proof.Machine

/-- A request for rate `r`: below the rate register it is rejected with channel 2, else adopted
(43_execute_dispatch.md R153, 60_exceptions.md R247). -/
def State.requestRate (r : Rate) (s : State) : State :=
  if rateCode r < rateCode s.rx.transferRate then s.withAck true
  else s.withRx { s.rx with transferRate := r, ack := false }

/-- RATE_FALLBACK, code 0. -/
def execRateFallback (s : State) : Host.Outcome State Fault Refusal :=
  .next ((s.requestRate .fallback).done .none)

/-- RATE_FAST, code 1. -/
def execRateFast (s : State) : Host.Outcome State Fault Refusal :=
  .next ((s.requestRate .fast).done .none)

/-- RATE_MEDIUM, code 2. -/
def execRateMedium (s : State) : Host.Outcome State Fault Refusal :=
  .next ((s.requestRate .medium).done .none)

/-- RATE_SLOW, code 3. -/
def execRateSlow (s : State) : Host.Outcome State Fault Refusal :=
  .next ((s.requestRate .slow).done .none)

/-- RATE_DEFAULT, code 4. -/
def execRateDefault (s : State) : Host.Outcome State Fault Refusal :=
  .next ((s.requestRate .default).done .none)

/-- The request of a rate byte: a code above 4 names no rate and is rejected the same way
(43_execute_dispatch.md R153). -/
def requestRateByte (b : Byte) (s : State) : Host.Outcome State Fault Refusal :=
  match rateOfByte b with
  | some .fallback => execRateFallback s
  | some .fast => execRateFast s
  | some .medium => execRateMedium s
  | some .slow => execRateSlow s
  | some .default => execRateDefault s
  | none => .next ((s.withAck true).done .none)

end Sys2Proof.Machine
end

