-- ==== Sys2Proof/Machine/Commands.lean ====
section
/-!
DEFINITION. The meanings of the wire commands, as `rx_execute` gives them to a dequeued packet, and
`rx_execute` itself (43_execute_dispatch.md).
-/

namespace Sys2Proof.Machine

/-! ### Commands decoded by the block -/

/-- A qualifier of a Ping admits the decoder: absent from the packet, zero, or equal to the decoder's own
value (30_encoding.md R66, 43_execute_dispatch.md R151). -/
def qualifierMatches (q : Option U32) (own : U32) : Bool := q.getD 0 == 0 || q.getD 0 == own

/-- PING, 43_execute_dispatch.md R151: no gate; it selects or deselects. -/
def execPing (sn did : Option U32) (s : State) : Host.Outcome State Fault Refusal :=
  .next ((s.withRx { s.rx with
    selected := qualifierMatches sn s.rx.serialNumber && qualifierMatches did s.rx.decoderId,
    ack := false }).done .none)

/-- The selection gate: an unselected decoder drops every command but Ping, with no effect
(43_execute_dispatch.md R152, 60_exceptions.md R248). -/
def State.gated (s : State) (run : State → State) : State :=
  if s.rx.selected then run s else s

/-- CONFIG_TRANSFER_RATE, 43_execute_dispatch.md R153. -/
def execConfigTransferRate (rate : Option Byte) (s : State) : Host.Outcome State Fault Refusal :=
  if s.rx.selected then
    match rate with
    | none => .next ((s.withAck false).done .none)
    | some b => requestRateByte b s
  else .next (s.done .none)

/-- BinarySearch with its position byte: `rx_ack <- arb_respond(p[4])` (43_execute_dispatch.md R154). -/
def State.search (position : Option Byte) (s : State) : State :=
  match position with
  | none => s.withAck false
  | some b => (s.withRx (s.rx.arbitrate (positionOfByte b))).withAck (s.rx.arbAnswer (positionOfByte b))

/-- BINARY_SEARCH, 43_execute_dispatch.md R154. -/
def execBinarySearch (position : Option Byte) (s : State) : Host.Outcome State Fault Refusal :=
  .next ((s.gated (State.search position)).done .none)

/-- CvRead with its fields: one `readCv` (43_execute_dispatch.md R155). -/
def State.readCv (fields : Option (U16 × Byte)) (s : State) : State :=
  match fields with
  | none => s.withAck false
  | some (number, pos) => s.askCv (.readCv (cvAddress number) pos)

/-- CV_READ, 43_execute_dispatch.md R155. -/
def execCvRead (fields : Option (U16 × Byte)) (s : State) : Host.Outcome State Fault Refusal :=
  .next ((s.gated (State.readCv fields)).done .none)

/-- CvWrite with its fields: one `writeCv` (43_execute_dispatch.md R156). -/
def State.writeCv (fields : Option (U16 × Byte)) (s : State) : State :=
  match fields with
  | none => s.withAck false
  | some (number, value) => s.askCv (.writeCv (cvAddress number) value)

/-- CV_WRITE, 43_execute_dispatch.md R156. -/
def execCvWrite (fields : Option (U16 × Byte)) (s : State) : Host.Outcome State Fault Refusal :=
  .next ((s.gated (State.writeCv fields)).done .none)

/-! ### Commands delegated to the host -/

/-- A delegated command: gate, then one `ext_execute` with the code and the raw packet, trailer included
(43_execute_dispatch.md R157 to R172). -/
def State.delegate (cmd : U32) (body : List Byte) (s : State) : State :=
  s.gated fun s => s.askExt cmd (be32Bytes cmd ++ body)

/-- BUSY, dequeued, 43_execute_dispatch.md R157. -/
def execBusy (body : List Byte) (s : State) : Host.Outcome State Fault Refusal :=
  .next ((s.delegate s.params.codes.busy body).done .none)

/-- ZSU_SALSA20_IV, 43_execute_dispatch.md R158. -/
def execZsuSalsa20Iv (body : List Byte) (s : State) : Host.Outcome State Fault Refusal :=
  .next ((s.delegate s.params.codes.zsuSalsa20Iv body).done .none)

/-- ZSU_ERASE, 43_execute_dispatch.md R159. -/
def execZsuErase (body : List Byte) (s : State) : Host.Outcome State Fault Refusal :=
  .next ((s.delegate s.params.codes.zsuErase body).done .none)

/-- ZSU_UPDATE, 43_execute_dispatch.md R160. -/
def execZsuUpdate (body : List Byte) (s : State) : Host.Outcome State Fault Refusal :=
  .next ((s.delegate s.params.codes.zsuUpdate body).done .none)

/-- ZSU_CRC32_START, 43_execute_dispatch.md R161. -/
def execZsuCrc32Start (body : List Byte) (s : State) : Host.Outcome State Fault Refusal :=
  .next ((s.delegate s.params.codes.zsuCrc32Start body).done .none)

/-- ZSU_CRC32_RESULT, 43_execute_dispatch.md R162. -/
def execZsuCrc32Result (body : List Byte) (s : State) : Host.Outcome State Fault Refusal :=
  .next ((s.delegate s.params.codes.zsuCrc32Result body).done .none)

/-- ZSU_CRC32_RESULT_EXIT, 43_execute_dispatch.md R163. -/
def execZsuCrc32ResultExit (body : List Byte) (s : State) : Host.Outcome State Fault Refusal :=
  .next ((s.delegate s.params.codes.zsuCrc32ResultExit body).done .none)

/-- ZPP_VALID_QUERY, 43_execute_dispatch.md R164. -/
def execZppValidQuery (body : List Byte) (s : State) : Host.Outcome State Fault Refusal :=
  .next ((s.delegate s.params.codes.zppValidQuery body).done .none)

/-- ZPP_LC_DC_QUERY, 43_execute_dispatch.md R165. -/
def execZppLcDcQuery (body : List Byte) (s : State) : Host.Outcome State Fault Refusal :=
  .next ((s.delegate s.params.codes.zppLcDcQuery body).done .none)

/-- ZPP_ERASE, 43_execute_dispatch.md R166. -/
def execZppErase (body : List Byte) (s : State) : Host.Outcome State Fault Refusal :=
  .next ((s.delegate s.params.codes.zppErase body).done .none)

/-- ZPP_UPDATE, 43_execute_dispatch.md R167. -/
def execZppUpdate (body : List Byte) (s : State) : Host.Outcome State Fault Refusal :=
  .next ((s.delegate s.params.codes.zppUpdate body).done .none)

/-- ZPP_UPDATE_END, 43_execute_dispatch.md R168. -/
def execZppUpdateEnd (body : List Byte) (s : State) : Host.Outcome State Fault Refusal :=
  .next ((s.delegate s.params.codes.zppUpdateEnd body).done .none)

/-- ZPP_EXIT, 43_execute_dispatch.md R169. -/
def execZppExit (body : List Byte) (s : State) : Host.Outcome State Fault Refusal :=
  .next ((s.delegate s.params.codes.zppExit body).done .none)

/-- ZPP_EXIT_RESET, 43_execute_dispatch.md R170. -/
def execZppExitReset (body : List Byte) (s : State) : Host.Outcome State Fault Refusal :=
  .next ((s.delegate s.params.codes.zppExitReset body).done .none)

/-- UNLISTED: a code that is none of the nineteen, 43_execute_dispatch.md R171. -/
def execUnlisted (cmd : U32) (body : List Byte) (s : State) : Host.Outcome State Fault Refusal :=
  .next ((s.delegate cmd body).done .none)

/-! ### `rx_execute` -/

/-- The meaning of a dequeued packet, by its command and the bytes after it (43_execute_dispatch.md
R150). -/
def runCommand (w : U32) (body : List Byte) (s : State) :
    Option Command → Host.Outcome State Fault Refusal
  | some .ping => execPing (splitPing body).1 (splitPing body).2.1 s
  | some .configTransferRate => execConfigTransferRate (splitByte body).1 s
  | some .binarySearch => execBinarySearch (splitByte body).1 s
  | some .cvRead => execCvRead (splitCv body).1 s
  | some .cvWrite => execCvWrite (splitCv body).1 s
  | some .busy => execBusy body s
  | some .zsuSalsa20Iv => execZsuSalsa20Iv body s
  | some .zsuErase => execZsuErase body s
  | some .zsuUpdate => execZsuUpdate body s
  | some .zsuCrc32Start => execZsuCrc32Start body s
  | some .zsuCrc32Result => execZsuCrc32Result body s
  | some .zsuCrc32ResultExit => execZsuCrc32ResultExit body s
  | some .zppValidQuery => execZppValidQuery body s
  | some .zppLcDcQuery => execZppLcDcQuery body s
  | some .zppErase => execZppErase body s
  | some .zppUpdate => execZppUpdate body s
  | some .zppUpdateEnd => execZppUpdateEnd body s
  | some .zppExit => execZppExit body s
  | some .zppExitReset => execZppExitReset body s
  | none => execUnlisted w body s

/-- The meaning of a dequeued packet (43_execute_dispatch.md R150). -/
def runPacket (p : List Byte) (s : State) : Host.Outcome State Fault Refusal :=
  match p with
  | a :: b :: c :: d :: body =>
    runCommand (be32 a b c d) body s (commandOfCode s.params.codes (be32 a b c d))
  | _ => .fault .queuedPacketTooShort

/-- `rx_execute()`, 43_execute_dispatch.md R150: at most one packet is dequeued and executed. -/
def execRxExecute (s : State) : Host.Outcome State Fault Refusal :=
  match s.rx.queue with
  | [] => .next (s.done .none)
  | p :: _ => runPacket p (s.withRx s.rx.queuePop)

end Sys2Proof.Machine
end

