-- ==== Sys2Proof/Machine/Entry.lean ====
section
/-!
DEFINITION. The EntrySequenceDetector (46_entry_sequence.md).
-/

namespace Sys2Proof.Machine

/-- The target sequence and its hook, by the value of the first pair (46_entry_sequence.md R223); the hook
is made only when registered (U16). -/
def entryTarget (k : Params) (id : U32) (first : Byte) : Option (List EntryPair × List HostCall) :=
  if first = 0xFE then some (k.seqZpp.toList, ifRegistered k.host.zppEntry .zppEntry)
  else if first = 0xFF then some ((seqFwFor k id).toList, ifRegistered k.host.zsuEntry .zsuEntry)
  else none

/-- The detector after a pair has been appended: `buf` is the sequence with it, not empty
(46_entry_sequence.md R220, R223 to R225). -/
def entryMatch (k : Params) (id : U32) (buf : List EntryPair) : List EntryPair × List HostCall :=
  match buf.head?.bind fun p => entryTarget k id p.value with
  | none => ([], [])
  | some (target, hook) =>
    if buf ≠ target.take buf.length then ([], [])
    else if buf.length = target.length then ([], hook)
    else (buf, [])

/-- `entry_write(idx, val)`, 46_entry_sequence.md R220: the sequence afterwards, and the calls. -/
def EntryDetector.write (k : Params) (es : EntryDetector) (p : EntryPair) :
    List EntryPair × List HostCall :=
  if relevantIndex p.index = false then ([], [])
  else if es.buf.getLast?.map EntryPair.index = some p.index then (es.buf, [])
  else entryMatch k es.decoderId (es.buf ++ [p])

/-- `entry_write(idx, val)`, 46_entry_sequence.md R220. -/
def execEntryWrite (idx : U32) (val : Byte) (s : State) : Host.Outcome State Fault Refusal :=
  .next (((s.withEs { s.es with buf := (s.es.write s.params ⟨idx, val⟩).1 }).calls
    (s.es.write s.params ⟨idx, val⟩).2).done .none)

end Sys2Proof.Machine
end

