-- ==== Sys2Proof/Machine/Functions.lean ====
section
/-!
DEFINITION. The meanings of `reset` (70_reset_and_hazards.md R270) and of the pure functions that the spec
lists as operations (00_scope.md R8).
-/

namespace Sys2Proof.Machine

/-- The ReceiveEngine constructed; a run that ended inside `ext_execute` may go on
(70_reset_and_hazards.md R270, R277). -/
def State.resetReceive (a : ResetArgs) (s : State) : State :=
  { s with rx := ReceiveEngine.construct a, halted := false }

/-- The TransmitEngine constructed. -/
def State.resetTransmit (a : ResetArgs) (s : State) : State := s.withTx (TransmitEngine.construct a)

/-- The EntrySequenceDetector constructed. -/
def State.resetEntry (a : ResetArgs) (s : State) : State := s.withEs (EntryDetector.construct a)

/-- `reset`, 70_reset_and_hazards.md R270: all components, or one, each writing its own partition. -/
def execReset (scope : ResetScope) (a : ResetArgs) (s : State) : Host.Outcome State Fault Refusal :=
  .next ((match scope with
    | .all => ((s.resetReceive a).resetTransmit a).resetEntry a
    | .receive => s.resetReceive a
    | .transmit => s.resetTransmit a
    | .entry => s.resetEntry a).done .none)

/-- `classify(t, r)`, 40_timing_classifier.md R100. -/
def execClassify (t : U32) (r : Rate) (s : State) : Host.Outcome State Fault Refusal :=
  .next (s.done (.symbol (classify s.params.timing t r)))

/-- `ack_duration(t, r)`, 40_timing_classifier.md R104. -/
def execAckDuration (t : U32) (r : Rate) (s : State) : Host.Outcome State Fault Refusal :=
  .next (s.done (.word (ackDuration s.params.timing t r)))

/-- `crc8_next(c, b)`, 41_crc.md R110. -/
def execCrc8Next (c b : Byte) (s : State) : Host.Outcome State Fault Refusal :=
  .next (s.done (.byte (crc8Next c b)))

/-- `crc32_next(c, b)`, 41_crc.md R112. -/
def execCrc32Next (c : U32) (b : Byte) (s : State) : Host.Outcome State Fault Refusal :=
  .next (s.done (.word (crc32Next c b)))

/-- `crc32_value(c)`, 41_crc.md R113. -/
def execCrc32Value (c : U32) (s : State) : Host.Outcome State Fault Refusal :=
  .next (s.done (.word (crc32Value c)))

end Sys2Proof.Machine
end

