-- ==== Sys2Proof/Machine/Flags.lean ====
section
/-!
DEFINITION. The two acknowledgement flags as the packet validator assigns them (42_receive_engine.md R127
to R130).
-/

namespace Sys2Proof.Machine

/-- What `validate` decides: the two flags, and whether the packet is queued. -/
structure Verdict where
  nack : Bool
  ack : Bool
  queued : Bool
  deriving DecidableEq, Repr

/-- `cmd in CRC32_CMDS` (30_encoding.md R64). -/
def isCrc32Class (k : Params) (cmd : U32) : Bool := k.crc32Cmds.any fun c => commandCode k.codes c == cmd

/-- The checksum test by command class (42_receive_engine.md R129), with `bad8` and `bad32` the registers'
being nonzero. -/
def checksumVerdict (k : Params) (cmd : U32) (bad8 bad32 : Bool) : Verdict :=
  if isCrc32Class k cmd then ⟨bad32, bad32, !bad32⟩
  else if cmd = k.codes.zsuSalsa20Iv then ⟨bad8, bad8, !bad8⟩
  else ⟨bad8, false, !bad8⟩

/-- The queue has at most one free slot (42_receive_engine.md R128). -/
def ReceiveEngine.busy (k : Params) (rx : ReceiveEngine) : Bool :=
  decide (k.queueCap - rx.queue.length ≤ 1)

/-- `validate()`, 42_receive_engine.md R127: short, then busy, then the checksum of the class; both flags
start from false. -/
def ReceiveEngine.validate (k : Params) (rx : ReceiveEngine) : Verdict :=
  if rx.buf.length < k.pktMin then ⟨true, false, false⟩
  else if rx.busy k then
    ⟨true, decide (commandWord rx.buf = k.codes.busy) && decide (rx.crc8 = 0), false⟩
  else checksumVerdict k (commandWord rx.buf) (decide (rx.crc8 ≠ 0)) (decide (rx.crc32 ≠ 0))

end Sys2Proof.Machine
end

