-- ==== Sys2Proof/Machine/Receive.lean ====
section
/-!
DEFINITION. The receive state machine: its four handlers, and the meanings of the four symbols
(42_receive_engine.md).
-/

namespace Sys2Proof.Machine

/-- `preamble_handler(sym)`, 42_receive_engine.md R124. -/
def ReceiveEngine.preambleHandler (k : Params) (sym : Symbol) (rx : ReceiveEngine) : ReceiveEngine :=
  if sym = .one then { rx with bitCount := satInc8 rx.bitCount }
  else if sym = .zero ∧ k.preambleMin ≤ rx.bitCount.toNat then
    { rx.clearFrame with active := true, state := .data }
  else rx.restart

/-- The eighth bit of a byte has been shifted in: both checksums are folded, the byte is stored; a byte
beyond `PKT_CAP` restarts the machine (42_receive_engine.md R125, 60_exceptions.md R245). -/
def ReceiveEngine.completeByte (k : Params) (rx : ReceiveEngine) : ReceiveEngine :=
  if rx.buf.length = k.pktCap then rx.restart
  else
    { rx.bufAppend k rx.acc with
      crc8 := crc8Next rx.crc8 rx.acc, crc32 := crc32Next rx.crc32 rx.acc,
      acc := 0, bitCount := 0, state := .endBit }

/-- One data bit is shifted into the accumulator, the first bit ending as bit 7 (42_receive_engine.md
R125, 20_memory.md R42). -/
def ReceiveEngine.shiftBit (bit : Bool) (rx : ReceiveEngine) : ReceiveEngine :=
  { rx with acc := (rx.acc <<< 1) ||| (if bit then 1#8 else 0#8), bitCount := rx.bitCount + 1 }

/-- `data_handler(sym)`, 42_receive_engine.md R125. -/
def ReceiveEngine.dataHandler (k : Params) (sym : Symbol) (rx : ReceiveEngine) : ReceiveEngine :=
  if sym ≠ .zero ∧ sym ≠ .one then rx.restart
  else
    let shifted := rx.shiftBit (decide (sym = .one))
    if shifted.bitCount = 8 then shifted.completeByte k else shifted

/-- The stop bit: the packet is validated, a valid one is queued, and the window opens whatever the verdict
(42_receive_engine.md R126). -/
def ReceiveEngine.stopBit (k : Params) (rx : ReceiveEngine) : ReceiveEngine :=
  let v := rx.validate k
  let flagged := { rx with nack := v.nack, ack := v.ack }
  let kept := if v.queued then flagged.queuePush rx.buf else flagged
  { kept.clearFrame with state := .ackReq }

/-- `endbit_handler(sym)`, 42_receive_engine.md R126. -/
def ReceiveEngine.endBitHandler (k : Params) (sym : Symbol) (rx : ReceiveEngine) : ReceiveEngine :=
  if sym = .zero then { rx with state := .data }
  else if sym = .one then rx.stopBit k
  else rx.restart

/-- The pulses at ackreq position `n`: channel 1 at 2 to 4 echoes nack, channel 2 at 6 to 8 echoes ack
(42_receive_engine.md R131, R132; 30_encoding.md R62). -/
def ackPulses (tm : Timing) (t : U32) (rx : ReceiveEngine) (n : Byte) : List HostCall :=
  (if 2 ≤ n ∧ n ≤ 4 ∧ rx.nack then [.ackbit (ackDuration tm t rx.transferRate)] else [])
    ++ (if 6 ≤ n ∧ n ≤ 8 ∧ rx.ack then [.ackbit (ackDuration tm t rx.transferRate)] else [])

/-- `ackreq_handler(sym, t)`, 42_receive_engine.md R131. -/
def State.ackreqHandler (sym : Symbol) (t : U32) (s : State) : State :=
  if s.rx.selected = false ∨ sym ≠ .ackreq then s.withRx s.rx.restart
  else
    let n := satInc8 s.rx.bitCount
    (s.withRx { s.rx with bitCount := n }).calls (ackPulses s.params.timing t s.rx n)

/-- The override: an ackreq symbol outside `AckReq` jumps there and restarts the position
(42_receive_engine.md R121). -/
def ReceiveEngine.ackreqOverride (sym : Symbol) (rx : ReceiveEngine) : ReceiveEngine :=
  if sym = .ackreq ∧ rx.state ≠ .ackReq then { rx with state := .ackReq, bitCount := 0 } else rx

/-- `rx_receive(t)` after classification, 42_receive_engine.md R120: the override, then the one handler of
the state that it leaves. -/
def State.receiveSymbol (sym : Symbol) (t : U32) (s : State) : State :=
  let s1 := s.withRx (s.rx.ackreqOverride sym)
  match s1.rx.state with
  | .preamble => s1.withRx (s1.rx.preambleHandler s.params sym)
  | .data => s1.withRx (s1.rx.dataHandler s.params sym)
  | .endBit => s1.withRx (s1.rx.endBitHandler s.params sym)
  | .ackReq => s1.ackreqHandler sym t

/-- SYM_ZERO: an edge whose time classifies as Zero (42_receive_engine.md R120, R134). -/
def execSymZero (t : U32) (s : State) : Host.Outcome State Fault Refusal :=
  .next ((s.receiveSymbol .zero t).done .none)

/-- SYM_ONE: an edge whose time classifies as One (42_receive_engine.md R120, R134). -/
def execSymOne (t : U32) (s : State) : Host.Outcome State Fault Refusal :=
  .next ((s.receiveSymbol .one t).done .none)

/-- SYM_ACKREQ: an edge whose time classifies as Ackreq (42_receive_engine.md R120, R134). -/
def execSymAckreq (t : U32) (s : State) : Host.Outcome State Fault Refusal :=
  .next ((s.receiveSymbol .ackreq t).done .none)

/-- SYM_INVALID: an edge whose time is in no window (42_receive_engine.md R120, R134). -/
def execSymInvalid (t : U32) (s : State) : Host.Outcome State Fault Refusal :=
  .next ((s.receiveSymbol .invalid t).done .none)

/-- `rx_receive(t)`, 42_receive_engine.md R120: classify at the rate in use, then consume the symbol. -/
def execRxReceive (t : U32) (s : State) : Host.Outcome State Fault Refusal :=
  match classify s.params.timing t s.rx.transferRate with
  | .zero => execSymZero t s
  | .one => execSymOne t s
  | .ackreq => execSymAckreq t s
  | .invalid => execSymInvalid t s

/-- `rx_active()`, 42_receive_engine.md R133. -/
def execRxActive (s : State) : Host.Outcome State Fault Refusal :=
  .next (s.done (.bool s.rx.active))

end Sys2Proof.Machine
end

