-- ==== Sys2Proof/Machine/Transmit.lean ====
section
/-!
DEFINITION. The TransmitEngine (44_transmit_engine.md).
-/

namespace Sys2Proof.Machine

/-- `tx_init(c)`, 44_transmit_engine.md R180: refused unless idle, and for a rate code above 4. -/
def execTxInit (c : TxConfig) (s : State) : Host.Outcome State Fault Refusal :=
  .next (match s.tx.state, rateOfByte c.rate with
    | .idle, some r =>
      (s.withTx { s.tx with
        rate := r, numPreamble := c.numPreamble, numAckreq := c.numAckreq,
        invert := c.invert }).done (.bool true)
    | _, _ => s.done (.bool false))

/-- `tx_set_transfer_rate(r)`, 44_transmit_engine.md R181: refused unless idle, and for a code above 4. -/
def execTxSetTransferRate (r : Byte) (s : State) : Host.Outcome State Fault Refusal :=
  .next (match s.tx.state, rateOfByte r with
    | .idle, some rate => (s.withTx { s.tx with rate := rate }).done (.bool true)
    | _, _ => s.done (.bool false))

/-- `tx_packet(p)` accepts: idle, and 1 to `PKT_CAP` bytes (44_transmit_engine.md R182). -/
def TransmitEngine.accepts (k : Params) (tx : TransmitEngine) (p : List Byte) : Bool :=
  decide (tx.state = .idle) && decide (p ≠ []) && decide (p.length ≤ k.pktCap)

/-- The engine with a packet loaded (44_transmit_engine.md R182). -/
def TransmitEngine.load (tx : TransmitEngine) (p : List Byte) : TransmitEngine :=
  { tx with
    pkt := p, preCount := 0, ackCount := 0, byteIdx := 0, bitIdx := 8,
    state := if tx.numPreamble = 0 then .packet else .preamble }

/-- `tx_packet(p)`, alias `tx_bytes(p)`, 44_transmit_engine.md R182. -/
def execTxPacket (p : List Byte) (s : State) : Host.Outcome State Fault Refusal :=
  .next (if s.tx.accepts s.params p then (s.withTx (s.tx.load p)).done (.bool true)
    else s.done (.bool false))

/-- The tick in `Preamble` (44_transmit_engine.md R185). -/
def TransmitEngine.preambleTick (tx : TransmitEngine) : TransmitEngine :=
  if tx.preCount + 1 ≥ tx.numPreamble then
    { tx with preCount := tx.preCount + 1, state := .packet, byteIdx := 0, bitIdx := 8 }
  else { tx with preCount := tx.preCount + 1 }

/-- The bit of the packet that the next tick in `Packet` sends (44_transmit_engine.md R186). -/
def TransmitEngine.currentBit (tx : TransmitEngine) : Bool :=
  (byteAt tx.pkt tx.byteIdx).getLsbD tx.bitIdx.val

/-- The tick in `Packet` (44_transmit_engine.md R186): the start bit, a bit, or the last bit of a byte. -/
def TransmitEngine.packetTick (tx : TransmitEngine) : TransmitEngine :=
  if tx.bitIdx.val = 8 then { tx with bitIdx := 7 }
  else if tx.bitIdx.val = 0 then
    { tx with
      byteIdx := tx.byteIdx + 1, bitIdx := 8,
      state := if tx.byteIdx + 1 = tx.pkt.length then .packetEnd else tx.state }
  else { tx with bitIdx := ⟨tx.bitIdx.val - 1, by omega⟩ }

/-- The tick in `PacketEnd` (44_transmit_engine.md R187). -/
def TransmitEngine.packetEndTick (tx : TransmitEngine) : TransmitEngine :=
  { tx with ackCount := 0, state := if tx.numAckreq = 0 then .idle else .ackReq }

/-- The tick in `AckReq` (44_transmit_engine.md R188). -/
def TransmitEngine.ackreqTick (tx : TransmitEngine) : TransmitEngine :=
  { tx with
    ackCount := tx.ackCount + 1,
    state := if tx.ackCount + 1 = tx.numAckreq then .idle else tx.state }

/-- The engine after a tick, the polarity apart (44_transmit_engine.md R183). -/
def TransmitEngine.advance (tx : TransmitEngine) : TransmitEngine :=
  match tx.state with
  | .idle => tx
  | .preamble => tx.preambleTick
  | .packet => tx.packetTick
  | .packetEnd => tx.packetEndTick
  | .ackReq => tx.ackreqTick

/-- The duration a tick returns, of the row of `tx_rate` (44_transmit_engine.md R184 to R188). -/
def TransmitEngine.duration (w : TimingRow) (tx : TransmitEngine) : U32 :=
  match tx.state with
  | .idle => w.one
  | .preamble => w.one
  | .packet => if tx.bitIdx.val = 8 then w.zero else if tx.currentBit then w.one else w.zero
  | .packetEnd => w.one
  | .ackReq => w.ackreq

/-- The calls of an ackreq tick numbered `n` (44_transmit_engine.md R188, R189). -/
def ackreqCalls (h : HostCaps) (n last : Byte) : List HostCall :=
  (if n = 1 then ifRegistered h.ackreqBegin .ackreqBegin else [])
    ++ (if 2 ≤ n ∧ n ≤ 4 then ifRegistered h.ackreqChannel1 (.ackreqChannel1 n) else [])
    ++ (if 6 ≤ n ∧ n ≤ 8 then ifRegistered h.ackreqChannel2 (.ackreqChannel2 n) else [])
    ++ (if n = last then ifRegistered h.ackreqEnd .ackreqEnd else [])

/-- The calls of a tick: the track level, then those of the ackreq window (44_transmit_engine.md R183,
R188). -/
def TransmitEngine.tickCalls (h : HostCaps) (tx : TransmitEngine) : List HostCall :=
  ifRegistered h.trackOutputs (.trackOutputs (xor (!tx.polarity) tx.invert))
    ++ (if tx.state = .ackReq then ackreqCalls h (tx.ackCount + 1) tx.numAckreq else [])

/-- The engine after a tick: the polarity is inverted by every one (44_transmit_engine.md R183). -/
def TransmitEngine.tick (tx : TransmitEngine) : TransmitEngine :=
  { tx.advance with polarity := !tx.polarity }

/-- `tx_transmit()`, 44_transmit_engine.md R183: one duration of the row `tx_rate`. -/
def execTxTransmit (s : State) : Host.Outcome State Fault Refusal :=
  .next (((s.withTx s.tx.tick).calls (s.tx.tickCalls s.params.host)).done
    (.word (s.tx.duration (timingRow s.params.timing s.tx.rate))))

end Sys2Proof.Machine
end

