-- ==== Sys2Proof/Machine/Dispatch.lean ====
section
/-!
DEFINITION. The dispatch of an instruction to its meaning, one arm per row of the opcode table.
-/

namespace Sys2Proof.Machine

/-- The meaning of an instruction. -/
def exec (i : Instr) (s : State) : Host.Outcome State Fault Refusal :=
  match i with
  | .ping sn did _ => Sys2Proof.Machine.execPing sn did s
  | .configTransferRate rate _ => Sys2Proof.Machine.execConfigTransferRate rate s
  | .binarySearch position _ => Sys2Proof.Machine.execBinarySearch position s
  | .cvRead fields _ => Sys2Proof.Machine.execCvRead fields s
  | .cvWrite fields _ => Sys2Proof.Machine.execCvWrite fields s
  | .busy body => Sys2Proof.Machine.execBusy body s
  | .zsuSalsa20Iv body => Sys2Proof.Machine.execZsuSalsa20Iv body s
  | .zsuErase body => Sys2Proof.Machine.execZsuErase body s
  | .zsuUpdate body => Sys2Proof.Machine.execZsuUpdate body s
  | .zsuCrc32Start body => Sys2Proof.Machine.execZsuCrc32Start body s
  | .zsuCrc32Result body => Sys2Proof.Machine.execZsuCrc32Result body s
  | .zsuCrc32ResultExit body => Sys2Proof.Machine.execZsuCrc32ResultExit body s
  | .zppValidQuery body => Sys2Proof.Machine.execZppValidQuery body s
  | .zppLcDcQuery body => Sys2Proof.Machine.execZppLcDcQuery body s
  | .zppErase body => Sys2Proof.Machine.execZppErase body s
  | .zppUpdate body => Sys2Proof.Machine.execZppUpdate body s
  | .zppUpdateEnd body => Sys2Proof.Machine.execZppUpdateEnd body s
  | .zppExit body => Sys2Proof.Machine.execZppExit body s
  | .zppExitReset body => Sys2Proof.Machine.execZppExitReset body s
  | .unlisted cmd body => Sys2Proof.Machine.execUnlisted cmd body s
  | .symZero t => Sys2Proof.Machine.execSymZero t s
  | .symOne t => Sys2Proof.Machine.execSymOne t s
  | .symAckreq t => Sys2Proof.Machine.execSymAckreq t s
  | .symInvalid t => Sys2Proof.Machine.execSymInvalid t s
  | .posReadBit idx => Sys2Proof.Machine.execPosReadBit idx s
  | .posReadComplement idx => Sys2Proof.Machine.execPosReadComplement idx s
  | .posPruneSet idx => Sys2Proof.Machine.execPosPruneSet idx s
  | .posPruneClear idx => Sys2Proof.Machine.execPosPruneClear idx s
  | .posNewRound => Sys2Proof.Machine.execPosNewRound s
  | .posNoop op => Sys2Proof.Machine.execPosNoop op s
  | .rateFallback => Sys2Proof.Machine.execRateFallback s
  | .rateFast => Sys2Proof.Machine.execRateFast s
  | .rateMedium => Sys2Proof.Machine.execRateMedium s
  | .rateSlow => Sys2Proof.Machine.execRateSlow s
  | .rateDefault => Sys2Proof.Machine.execRateDefault s
  | .reset scope args => Sys2Proof.Machine.execReset scope args s
  | .classify t r => Sys2Proof.Machine.execClassify t r s
  | .ackDuration t r => Sys2Proof.Machine.execAckDuration t r s
  | .crc8Next c b => Sys2Proof.Machine.execCrc8Next c b s
  | .crc32Next c b => Sys2Proof.Machine.execCrc32Next c b s
  | .crc32Value c => Sys2Proof.Machine.execCrc32Value c s
  | .rxReceive t => Sys2Proof.Machine.execRxReceive t s
  | .rxExecute => Sys2Proof.Machine.execRxExecute s
  | .rxActive => Sys2Proof.Machine.execRxActive s
  | .arbRespond pos => Sys2Proof.Machine.execArbRespond pos s
  | .entryWrite idx val => Sys2Proof.Machine.execEntryWrite idx val s
  | .txInit c => Sys2Proof.Machine.execTxInit c s
  | .txSetTransferRate r => Sys2Proof.Machine.execTxSetTransferRate r s
  | .txPacket p => Sys2Proof.Machine.execTxPacket p s
  | .txTransmit => Sys2Proof.Machine.execTxTransmit s

end Sys2Proof.Machine
end

