-- ==== Sys2Proof/Machine/Fetch.lean ====
section
/-!
DEFINITION. Where the machine takes its next instruction from, and how a word of the opcode table is put
there. The block fetches nothing: it runs the operations the host issues (00_scope.md R8), which State
holds in order (log 1).
-/

namespace Sys2Proof.Machine

/-- The pending operation and the state with its request taken: none when the host has issued nothing. -/
def State.fetch (s : State) : Option (Except DecodeError Instr × State) :=
  match s.requests with
  | [] => none
  | p :: rest => some (decodeOperation p, { s with requests := rest })

/-- The instruction constructs the block anew: all that may follow a handler that did not return
(43_execute_dispatch.md R173, 70_reset_and_hazards.md R277). -/
def isReset : Instr → Bool
  | .reset _ _ => true
  | _ => false

/-- A packet waits in the queue under the table's command codes, and the host issues `rx_execute`. -/
def State.presentPacket (s : State) (p : List Byte) : State :=
  { s with
    params := { s.params with codes := Codes.table }
    rx := { s.rx with queue := [p] }
    halted := false
    requests := [encode Codes.table .rxExecute] }

/-- A selected decoder holds a ConfigTransferRate packet that carries the rate byte. -/
def State.presentRate (s : State) (b : Byte) : State :=
  (s.withRx { s.rx with selected := true }).presentPacket
    (encode Codes.table (.configTransferRate (some b) [0]))

/-- The host issues `arb_respond` with the position code. -/
def State.presentPosition (s : State) (b : Byte) : State :=
  { s with halted := false, requests := [encode Codes.table (.arbRespond b)] }

/-- The instruction of a table word placed where the next step runs it (log 3): a packet in the queue with
`rx_execute` issued; a rate code in a ConfigTransferRate packet of a selected decoder; a position code as
the operand of `arb_respond`. The split of 8-bit words is that of `decodeTableWord`. -/
def placeTableWord (s : State) (nbits w : Nat) : State :=
  if nbits = 32 then s.presentPacket (packetOfWord w)
  else if nbits = 8 then
    if w < 5 then s.presentRate (BitVec.ofNat 8 w) else s.presentPosition (BitVec.ofNat 8 w)
  else s

end Sys2Proof.Machine
end

