-- ==== Sys2Proof/Machine/Step.lean ====
section
/-!
DEFINITION. One step of the machine: the operation the host has issued first, decoded and run. With
nothing issued the block stays parked in its state (60_exceptions.md R262, 70_reset_and_hazards.md R279).
-/

namespace Sys2Proof.Machine

/-- The state in which the very next step runs the instruction of a word of the opcode table (log 3). -/
def State.withFetchWord (s : State) (nbits w : Nat) : State := placeTableWord s nbits w

/-- One step: one whole operation (00_scope.md R4). -/
def step (s : State) : Host.Outcome State Fault Refusal :=
  match s.fetch with
  | none => .next s
  | some (.error e, _) => .refused (.undecodable e)
  | some (.ok i, s') => if s'.halted && !isReset i then .fault .stuckInHandler else exec i s'

end Sys2Proof.Machine
end

