-- ==== Sys2Proof/Safety.lean ====
section
/-!
DEFINITION. The terms that claims about the machine use: well-formed parameters (00_scope.md R6), the
invariants between operations (42_receive_engine.md R135 and its counterparts), runs of operations, and
the frame as a list of durations (30_encoding.md R61).
-/

namespace Sys2Proof.Machine

/-! ### Outcomes and runs -/

/-- A step is safe when it stops with no fault. -/
def safeOutcome : Host.Outcome State Fault Refusal → Bool
  | .next _ => true
  | .fault _ => false
  | .refused _ => true

/-- The instructions in order, up to the first that gives no next state. -/
def execAll : List Instr → State → Host.Outcome State Fault Refusal
  | [], s => .next s
  | i :: rest, s =>
    match exec i s with
    | .next t => execAll rest t
    | .fault e => .fault e
    | .refused e => .refused e

/-- `n` calls of `tx_transmit`: their results in order, and the state they end in. -/
def transmitN : Nat → State → Option (List U32 × State)
  | 0, s => some ([], s)
  | n + 1, s =>
    match exec .txTransmit s with
    | .next t =>
      match t.result with
      | .word d => (transmitN n t).map fun x => (d :: x.1, x.2)
      | _ => none
    | _ => none

/-! ### Well-formed parameters (00_scope.md R6) -/

/-- The rates. -/
def allRates : List Rate := [.fallback, .fast, .medium, .slow, .default]

/-- R6 condition 1 for a row: each nominal duration lies in its own window. -/
def rowSound (w : TimingRow) : Bool := inOne w w.one && inZero w w.zero && inAckreq w w.ackreq

/-- R6 condition 2 for a row: its nominal durations, and those of row 0, lie in no window that is tested
before their own, neither of the row nor of row 0. -/
def rowSeparate (w f : TimingRow) : Bool :=
  !inZero w w.one && !inZero f w.one
    && !inZero w w.ackreq && !inZero f w.ackreq && !inOne w w.ackreq && !inOne f w.ackreq
    && !inZero w f.one && !inZero w f.ackreq && !inOne w f.ackreq

/-- R6 conditions 1 and 2. -/
def timingWellFormed (tm : Timing) : Bool :=
  allRates.all fun r => rowSound (timingRow tm r) && rowSeparate (timingRow tm r) tm.fallback

/-- R6 condition 3: the nineteen command codes are pairwise distinct. -/
def codesDistinct (k : Codes) : Bool := decide (allCommands.map (commandCode k)).Nodup

/-- R6 condition 4 for a sequence whose first pair has the value `first`. -/
def sequenceWellFormed (first : Byte) (l : List EntryPair) : Bool :=
  decide (l.head?.map EntryPair.value = some first) && (l.all fun p => relevantIndex p.index)
    && ((l.zip l.tail).all fun x => x.1.index != x.2.index)

/-- The all-zero tail after the five pairs of the header (30_encoding.md R75, 46_entry_sequence.md R226). -/
def zeroTail (l : List EntryPair) : Bool := (l.drop 5).all fun p => p.value == 0

/-- The shape of an expected sequence whose first pair has the value `first`: R6 condition 4 and the all-zero
tail (46_entry_sequence.md R226). The lengths 7 and 9 are in the types. -/
def sequenceInShape (first : Byte) (l : List EntryPair) : Bool := sequenceWellFormed first l && zeroTail l

/-- Two expected sequences differ in their pairs 1 to 4 at most: what may depend on the decoder id
(46_entry_sequence.md R226). -/
def agreeOutsideHeader (l m : List EntryPair) : Bool := l.head? == m.head? && l.drop 5 == m.drop 5

/-- Every expected sequence of the configuration has the shape of 46_entry_sequence.md R226. -/
structure SequencesInShape (k : Params) : Prop where
  zpp : sequenceInShape 0xFE k.seqZpp.toList = true
  fw : ∀ id, sequenceInShape 0xFF (seqFwFor k id).toList = true
  fwFixed : ∀ a b, agreeOutsideHeader (seqFwFor k a).toList (seqFwFor k b).toList = true

/-! ### Invariants -/

/-- The trailer of a packet is right for its class (30_encoding.md R64). -/
def trailerOk (k : Params) (p : List Byte) : Bool :=
  if isCrc32Class k (commandWord p) then crc32Of p == 0 else crc8Of p == 0

/-- A packet that may stand in the queue: a valid length and a right trailer (10_state.md R16,
42_receive_engine.md R129). -/
def queueable (k : Params) (p : List Byte) : Prop :=
  k.pktMin ≤ p.length ∧ p.length ≤ k.pktCap ∧ trailerOk k p = true

/-- The invariants of the ReceiveEngine (42_receive_engine.md R135), with the queued packets' validity. -/
structure ReceiveEngine.Inv (k : Params) (rx : ReceiveEngine) : Prop where
  queueSize : rx.queue.length ≤ k.queueCap - 1
  queueValid : ∀ p ∈ rx.queue, queueable k p
  bufSize : rx.buf.length ≤ k.pktCap
  preambleEmpty : rx.state = .preamble → rx.buf = []
  dataCount : rx.state = .data → rx.bitCount.toNat ≤ 7
  endBitCount : rx.state = .endBit → rx.bitCount = 0 ∧ 1 ≤ rx.buf.length
  checksums : rx.state = .data ∨ rx.state = .endBit → rx.crc8 = crc8Of rx.buf ∧ rx.crc32 = crc32Of rx.buf

/-- The invariants of the TransmitEngine (10_state.md R24, R28; 44_transmit_engine.md R185 to R188). -/
structure TransmitEngine.Inv (k : Params) (tx : TransmitEngine) : Prop where
  pktSize : tx.pkt.length ≤ k.pktCap
  preambleCount : tx.state = .preamble → tx.preCount < tx.numPreamble ∧ 1 ≤ tx.pkt.length
  byteInRange : tx.state = .packet → tx.byteIdx < tx.pkt.length
  ackreqCount : tx.state = .ackReq → tx.ackCount < tx.numAckreq

/-- The invariant of the EntrySequenceDetector: its sequence is empty or a proper part, from the start, of
the target that its first pair selects (46_entry_sequence.md R223). -/
def EntryDetector.Inv (k : Params) (es : EntryDetector) : Prop :=
  es.buf = [] ∨ ∃ first target hook, es.buf.head?.map EntryPair.value = some first ∧
    entryTarget k es.decoderId first = some (target, hook) ∧
    es.buf = target.take es.buf.length ∧ es.buf.length < target.length

/-- The invariant that every step keeps. -/
structure State.Inv (s : State) : Prop where
  rx : s.rx.Inv s.params
  tx : s.tx.Inv s.params
  es : s.es.Inv s.params

/-! ### The frame as durations (30_encoding.md R61, 44_transmit_engine.md R190) -/

/-- The duration of a bit. -/
def bitDuration (w : TimingRow) (b : Bool) : U32 := if b then w.one else w.zero

/-- A byte on the wire: the start bit, then bits 7 to 0. -/
def byteDurations (w : TimingRow) (b : Byte) : List U32 :=
  w.zero :: [7, 6, 5, 4, 3, 2, 1, 0].map fun i => bitDuration w (b.getLsbD i)

/-- The durations of a frame before its stop bit: the preamble, then the bytes. -/
def frameHead (w : TimingRow) (preamble : Nat) (p : List Byte) : List U32 :=
  List.replicate preamble w.one ++ p.flatMap (byteDurations w)

/-- The durations of a whole frame. -/
def frameDurations (w : TimingRow) (preamble : Nat) (p : List Byte) (acks : Nat) : List U32 :=
  frameHead w preamble p ++ [w.one] ++ List.replicate acks w.ackreq

end Sys2Proof.Machine
end

