-- ==== Sys2Proof/WellFormed.lean ====
section
/-!
DEFINITION. Which instructions have an encoding: the checks on operands that their types do not make, under
the parameters and the rate in use. A packet's tail or body starts after the fields the block reads.
-/

namespace Sys2Proof

open Machine

/-- A packet has `PKT_MIN` to `PKT_CAP` bytes (30_encoding.md R63); `n` is the number after the command. -/
def packetLengthOk (k : Params) (n : Nat) : Bool := decide (k.pktMin ≤ n + 4) && decide (n + 4 ≤ k.pktCap)

/-- The fields of a Ping are present exactly when the packet is long enough: the serial number when
n >= 9, the decoder id when n >= 13 (30_encoding.md R66). -/
def pingFieldsOk (sn did : Option U32) (tail : List Byte) : Bool :=
  match sn, did with
  | some _, some _ => decide (1 ≤ tail.length)
  | some _, none => decide (1 ≤ tail.length) && decide (tail.length ≤ 4)
  | none, none => decide (tail.length ≤ 4)
  | none, some _ => false

/-- A one-byte field is present exactly when n >= 6 (30_encoding.md R67, R68). -/
def byteFieldOk (x : Option Byte) (tail : List Byte) : Bool :=
  match x with
  | some _ => decide (1 ≤ tail.length)
  | none => decide (tail.length ≤ 1)

/-- The fields of CvRead and CvWrite are present exactly when n >= 8 (30_encoding.md R69, R70). -/
def cvFieldsOk (x : Option (U16 × Byte)) (tail : List Byte) : Bool :=
  match x with
  | some _ => decide (1 ≤ tail.length)
  | none => decide (tail.length ≤ 3)

/-- The bytes an optional field takes. -/
def optionSize {α : Type} (n : Nat) (x : Option α) : Nat := if x.isSome then n else 0

/-- The instruction has an encoding in its layer, under the parameters `k` at rate `r`. -/
def Instr.wellFormed (k : Params) (r : Rate) : Instr → Bool
  | .ping sn did tail =>
    pingFieldsOk sn did tail && packetLengthOk k (optionSize 4 sn + optionSize 4 did + tail.length)
  | .configTransferRate x tail => byteFieldOk x tail && packetLengthOk k (optionSize 1 x + tail.length)
  | .binarySearch x tail => byteFieldOk x tail && packetLengthOk k (optionSize 1 x + tail.length)
  | .cvRead x tail => cvFieldsOk x tail && packetLengthOk k (optionSize 3 x + tail.length)
  | .cvWrite x tail => cvFieldsOk x tail && packetLengthOk k (optionSize 3 x + tail.length)
  | .busy body | .zsuSalsa20Iv body | .zsuErase body | .zsuUpdate body | .zsuCrc32Start body
  | .zsuCrc32Result body | .zsuCrc32ResultExit body | .zppValidQuery body | .zppLcDcQuery body
  | .zppErase body | .zppUpdate body | .zppUpdateEnd body | .zppExit body | .zppExitReset body =>
    packetLengthOk k body.length
  | .unlisted cmd body => (commandOfCode k.codes cmd).isNone && packetLengthOk k body.length
  | .symZero t => Machine.classify k.timing t r == .zero
  | .symOne t => Machine.classify k.timing t r == .one
  | .symAckreq t => Machine.classify k.timing t r == .ackreq
  | .symInvalid t => Machine.classify k.timing t r == .invalid
  | .posReadBit i | .posReadComplement i | .posPruneSet i | .posPruneClear i => i != 63
  | .posNoop op => op != 3
  | .posNewRound => true
  | .rateFallback | .rateFast | .rateMedium | .rateSlow | .rateDefault => true
  | .reset _ _ | .classify _ _ | .ackDuration _ _ | .crc8Next _ _ | .crc32Next _ _ => true
  | .crc32Value _ | .rxReceive _ | .rxExecute | .rxActive | .arbRespond _ => true
  | .entryWrite _ _ | .txInit _ | .txSetTransferRate _ | .txPacket _ | .txTransmit => true

end Sys2Proof
end

