-- ==== Sys2Proof/Certificates/Slice0/Obligations.lean ====
section
/-!
DEFINITION. The statements for the provers. A next state is written out as the state before with the
fields that change, so every statement of a result is also a frame: all the other registers, buffers,
flags, parameters and pending inputs are as before.
-/

open Sys2Proof Sys2Proof.Machine

/-! ### Decoding and encoding -/

/-- A well-formed instruction decodes from its encoding, in every layer (30_encoding.md R60, R63, R66 to
R74; the bytes of an operation are the model's own, log 1). -/
def Obligations.DecodeInvertsEncode : Prop :=
  ∀ (k : Params) (r : Rate) (i : Instr), codesDistinct k.codes = true → i.wellFormed k r = true →
    decode k r i.layer (encode k.codes i) = .ok i

/-- What a decoder accepts, the encoder writes back: no bit of an accepted encoding is dropped. -/
def Obligations.EncodeInvertsDecode : Prop :=
  ∀ (k : Params) (r : Rate) (l : Layer) (p : List Byte) (i : Instr),
    decode k r l p = .ok i → encode k.codes i = p ∧ i.layer = l

/-- Some words of 95_test_vectors.md V20, written out byte by byte, decode to what they stand for, under
the table's candidate codes (log 3). -/
def Obligations.WrittenOutWordsDecode : Prop :=
  decodePacket Codes.table [0xFF, 0xFF, 0xFF, 0xFF, 0x11, 0x22, 0x33, 0x44, 0x06, 0x04, 0x32, 0x00, 0x05]
      = .ok (.ping (some 0x11223344) (some 0x06043200) [0x05]) ∧
  decodePacket Codes.table [0xFF, 0xFF, 0xFF, 0xFE, 0x04, 0xD4]
      = .ok (.configTransferRate (some 4) [0xD4]) ∧
  decodePacket Codes.table [0xFF, 0xFF, 0xFF, 0xF6, 0x00, 0x08, 0x03, 0x75]
      = .ok (.cvRead (some (8, 3)) [0x75]) ∧
  decodePosition [0xC1] = .ok (.posPruneClear 1) ∧
  decodeRate [0x03] = .ok .rateSlow

/-! ### The step -/

/-- A step takes the request in front, and runs the operation it decodes to (00_scope.md R4, R8). -/
def Obligations.StepRunsTheDecodedOperation : Prop :=
  ∀ (s : State) (p : List Byte) (rest : List (List Byte)) (i : Instr),
    s.requests = p :: rest → decodeOperation p = .ok i → (s.halted = false ∨ isReset i = true) →
      step s = exec i { s with requests := rest }

/-- With nothing issued the block stays in its state (70_reset_and_hazards.md R279). -/
def Obligations.StalledBusLeavesTheStateParked : Prop :=
  ∀ s : State, s.requests = [] → step s = .next s

/-- After a handler that did not return, every operation but `reset` stops the machine
(43_execute_dispatch.md R173, 93_implementation_defined.md U10; log 8). -/
def Obligations.NothingButResetAfterNoReturn : Prop :=
  ∀ (s : State) (p : List Byte) (rest : List (List Byte)) (i : Instr),
    s.halted = true → s.requests = p :: rest → decodeOperation p = .ok i → isReset i = false →
      step s = .fault .stuckInHandler

/-- `rx_receive(t)` runs the symbol that `t` classifies as at the rate in use (42_receive_engine.md
R120). -/
def Obligations.ReceiveRunsTheClassifiedSymbol : Prop :=
  ∀ (s : State) (t : U32),
    exec (.rxReceive t) s = exec (symbolInstr t (classify s.params.timing t s.rx.transferRate)) s

/-- `rx_execute()` takes the front packet and runs the instruction it decodes to; on an empty queue nothing
changes but the operation's own (empty) result (43_execute_dispatch.md R150). -/
def Obligations.ExecuteRunsTheDequeuedPacket : Prop :=
  (∀ (s : State) (p : List Byte) (q : List (List Byte)) (i : Instr),
    s.rx.queue = p :: q → decodePacket s.params.codes p = .ok i →
      exec .rxExecute s = exec i { s with rx := { s.rx with queue := q } }) ∧
  (∀ s : State, s.rx.queue = [] → exec .rxExecute s = .next { s with result := .none })

/-- `arb_respond(pos)` runs the instruction of the position code (45_arbitration.md R211). -/
def Obligations.ArbRespondRunsThePositionCode : Prop :=
  ∀ (s : State) (pos : Byte) (i : Instr), decodePosition [pos] = .ok i →
    exec (.arbRespond pos) s = exec i s

/-! ### Commands -/

/-- Ping, selected or not: a qualifier that is present (in the packet and not zero) must equal the
decoder's own; the decoder is selected exactly when none is unequal; `rx_ack` is false. As an instruction,
and as a packet taken from the queue, whose qualifiers are present by length (43_execute_dispatch.md R151,
30_encoding.md R66). -/
def Obligations.PingSelectsByItsQualifiers : Prop :=
  (∀ (s : State) (sn did : Option U32) (tail : List Byte),
    exec (.ping sn did tail) s = .next { s with
      rx := { s.rx with
        selected := decide ((∀ x, sn = some x → x ≠ 0 → x = s.rx.serialNumber) ∧
          (∀ x, did = some x → x ≠ 0 → x = s.rx.decoderId)),
        ack := false },
      result := .none }) ∧
  (∀ (s : State) (p : List Byte) (q : List (List Byte)),
    s.rx.queue = p :: q → 4 ≤ p.length → commandWord p = s.params.codes.ping →
    let sn : U32 := if 9 ≤ p.length then be32 (byteAt p 4) (byteAt p 5) (byteAt p 6) (byteAt p 7) else 0
    let did : U32 := if 13 ≤ p.length then be32 (byteAt p 8) (byteAt p 9) (byteAt p 10) (byteAt p 11) else 0
    exec .rxExecute s = .next { s with
      rx := { s.rx with
        queue := q,
        selected := decide ((sn = 0 ∨ sn = s.rx.serialNumber) ∧ (did = 0 ∨ did = s.rx.decoderId)),
        ack := false },
      result := .none })

/-- Every command but Ping is dropped by a decoder that is not selected: no call, no flag, no register. As
an instruction, and as a packet taken from the queue (43_execute_dispatch.md R152). -/
def Obligations.UnselectedDecoderDropsCommands : Prop :=
  (∀ (s : State) (i : Instr), i.layer = .packet → (∀ sn did tail, i ≠ .ping sn did tail) →
    s.rx.selected = false → exec i s = .next { s with result := .none }) ∧
  (∀ (s : State) (p : List Byte) (q : List (List Byte)),
    s.rx.queue = p :: q → 4 ≤ p.length → commandWord p ≠ s.params.codes.ping → s.rx.selected = false →
    exec .rxExecute s = .next { s with rx := { s.rx with queue := q }, result := .none })

/-- ConfigTransferRate, selected: no rate byte, no effect but `rx_ack` false; a code above 4 or below the
register is rejected on channel 2; any other is adopted (43_execute_dispatch.md R153). -/
def Obligations.ConfigTransferRateRejectsOrAdopts : Prop :=
  ∀ (s : State) (tail : List Byte), s.rx.selected = true →
    exec (.configTransferRate none tail) s
      = .next { s with rx := { s.rx with ack := false }, result := .none } ∧
    (∀ b : Byte, (4 < b.toNat ∨ b.toNat < rateCode s.rx.transferRate) →
      exec (.configTransferRate (some b) tail) s
        = .next { s with rx := { s.rx with ack := true }, result := .none }) ∧
    (∀ (b : Byte) (r : Rate), b.toNat = rateCode r → rateCode s.rx.transferRate ≤ rateCode r →
      exec (.configTransferRate (some b) tail) s
        = .next { s with rx := { s.rx with transferRate := r, ack := false }, result := .none })

/-- Each of the five rate codes, as an instruction, is the request for its rate: RATE_FALLBACK, RATE_FAST,
RATE_MEDIUM, RATE_SLOW, RATE_DEFAULT. That a rate code runs so is the model's choice (log 10). -/
def Obligations.RateCodesRequestTheirRate : Prop :=
  ∀ (s : State) (i : Instr) (r : Rate),
    (i, r) ∈ [(Instr.rateFallback, Rate.fallback), (.rateFast, .fast), (.rateMedium, .medium),
      (.rateSlow, .slow), (.rateDefault, .default)] →
    (rateCode r < rateCode s.rx.transferRate →
      exec i s = .next { s with rx := { s.rx with ack := true }, result := .none }) ∧
    (rateCode s.rx.transferRate ≤ rateCode r →
      exec i s = .next { s with rx := { s.rx with transferRate := r, ack := false }, result := .none })

/-- BinarySearch, selected: channel 2 carries what `arb_respond` answers to the position byte, and
`arb_ignore` becomes what `arb_respond` leaves; without a position byte only `rx_ack` is written, with
false (43_execute_dispatch.md R154). -/
def Obligations.BinarySearchDelegatesToArbitration : Prop :=
  ∀ (s : State) (tail : List Byte), s.rx.selected = true →
    exec (.binarySearch none tail) s
      = .next { s with rx := { s.rx with ack := false }, result := .none } ∧
    (∀ pos : Byte, ∃ (u : State) (b : Bool),
      exec (.arbRespond pos) s = .next u ∧ u.result = .bool b ∧
      exec (.binarySearch (some pos) tail) s
        = .next { s with rx := { s.rx with arbIgnore := u.rx.arbIgnore, ack := b }, result := .none })

/-- CvRead, selected: one `readCv` of the number less one in 16 bits, and its answer on channel 2; a packet
too short makes no call and clears `rx_ack` (43_execute_dispatch.md R155). -/
def Obligations.CvReadCallsTheHost : Prop :=
  ∀ (s : State) (tail : List Byte), s.rx.selected = true →
    exec (.cvRead none tail) s
      = .next { s with rx := { s.rx with ack := false }, result := .none } ∧
    (∀ (number : U16) (pos : Byte),
      exec (.cvRead (some (number, pos)) tail) s = .next { s.dropCvAnswer with
        rx := { s.rx with ack := s.cvAnswer },
        trace := s.trace ++ [.readCv (number - 1) pos], result := .none })

/-- CvWrite, selected: one `writeCv` of the number less one in 16 bits, and its answer on channel 2; a
packet too short makes no call and clears `rx_ack` (43_execute_dispatch.md R156). -/
def Obligations.CvWriteCallsTheHost : Prop :=
  ∀ (s : State) (tail : List Byte), s.rx.selected = true →
    exec (.cvWrite none tail) s
      = .next { s with rx := { s.rx with ack := false }, result := .none } ∧
    (∀ (number : U16) (value : Byte),
      exec (.cvWrite (some (number, value)) tail) s = .next { s.dropCvAnswer with
        rx := { s.rx with ack := s.cvAnswer },
        trace := s.trace ++ [.writeCv (number - 1) value], result := .none })

/-- The delegated commands, selected: Busy, the six ZSU commands, the seven ZPP commands and an unlisted
code make one `ext_execute` with the code, the raw packet and the decoder id. Its Boolean goes to channel
2; where it does not return, `rx_ack` is not written and the run is over; where the host has registered
none, the answer is false (43_execute_dispatch.md R157 to R173, 70_reset_and_hazards.md R272). -/
def Obligations.DelegatedCommandsAskTheHost : Prop :=
  ∀ (s : State) (body : List Byte) (other : U32) (i : Instr) (cmd : U32),
    (i, cmd) ∈ [(Instr.busy body, s.params.codes.busy), (.zsuSalsa20Iv body, s.params.codes.zsuSalsa20Iv),
      (.zsuErase body, s.params.codes.zsuErase), (.zsuUpdate body, s.params.codes.zsuUpdate),
      (.zsuCrc32Start body, s.params.codes.zsuCrc32Start),
      (.zsuCrc32Result body, s.params.codes.zsuCrc32Result),
      (.zsuCrc32ResultExit body, s.params.codes.zsuCrc32ResultExit),
      (.zppValidQuery body, s.params.codes.zppValidQuery),
      (.zppLcDcQuery body, s.params.codes.zppLcDcQuery), (.zppErase body, s.params.codes.zppErase),
      (.zppUpdate body, s.params.codes.zppUpdate), (.zppUpdateEnd body, s.params.codes.zppUpdateEnd),
      (.zppExit body, s.params.codes.zppExit), (.zppExitReset body, s.params.codes.zppExitReset),
      (.unlisted other body, other)] →
    s.rx.selected = true →
    (∀ b, s.params.host.extExecute = true → s.extAnswer = .returns b →
      exec i s = .next { s.dropExtAnswer with
        rx := { s.rx with ack := b },
        trace := s.trace ++ [.extExecute cmd (be32Bytes cmd ++ body) s.rx.decoderId],
        result := .none }) ∧
    (s.params.host.extExecute = true → s.extAnswer = .neverReturns →
      exec i s = .next { s.dropExtAnswer with
        trace := s.trace ++ [.extExecute cmd (be32Bytes cmd ++ body) s.rx.decoderId],
        halted := true, result := .none }) ∧
    (s.params.host.extExecute = false →
      exec i s = .next { s with rx := { s.rx with ack := false }, result := .none })

/-- `rx_execute` has a next state on every queue whose front packet, if there is one, holds a command. It
takes that packet off and never writes the receive machine's state, counters, buffer, checksums, `rx_active`,
`rx_nack` or the identity, never pushes, and never calls `ackbit` (43_execute_dispatch.md R150, R174). Where
a handler behind `ext_execute` does not return, the operation may never complete (R173): that the model has a
next state there too, with `halted` set, is its choice (log 8). -/
def Obligations.ExecuteCompletesAndKeepsTheReceiver : Prop :=
  ∀ s : State, (∀ p ∈ s.rx.queue.head?, 4 ≤ p.length) →
    ∃ u : State, exec .rxExecute s = .next u ∧
      u.rx = { s.rx with
        queue := s.rx.queue.tail, selected := u.rx.selected, ack := u.rx.ack,
        transferRate := u.rx.transferRate, arbIgnore := u.rx.arbIgnore } ∧
      u.tx = s.tx ∧ u.es = s.es ∧ u.params = s.params ∧ u.result = .none ∧
      ∃ cs : List HostCall, u.trace = s.trace ++ cs ∧ cs.length ≤ 1 ∧ ∀ d, HostCall.ackbit d ∉ cs

/-! ### The receive machine -/

/-- `rx_reset`: the frame is forgotten, the state is Preamble, both flags are false; selection, activity,
queue, configuration and arbitration are kept (42_receive_engine.md R122, R123). -/
def Obligations.RestartClearsExactlyTheFrameAndFlags : Prop :=
  ∀ rx : ReceiveEngine, rx.restart = { rx with
    state := .preamble, nack := false, ack := false,
    bitCount := 0, acc := 0, crc8 := 0, crc32 := 0xFFFFFFFF, buf := [] }

/-- In Preamble: a One is counted, saturating at 255; a Zero after enough ones starts the first byte and
sets `rx_active`; a Zero too early, and an Invalid, restart (42_receive_engine.md R124). -/
def Obligations.PreambleCountsThenStartsData : Prop :=
  ∀ (s : State) (t : U32), s.rx.state = .preamble →
    exec (.symOne t) s = .next { s with
      rx := { s.rx with bitCount := BitVec.ofNat 8 (min (s.rx.bitCount.toNat + 1) 255) },
      result := .none } ∧
    (s.params.preambleMin ≤ s.rx.bitCount.toNat →
      exec (.symZero t) s = .next { s with
        rx := { s.rx with
          active := true, state := .data,
          bitCount := 0, acc := 0, crc8 := 0, crc32 := 0xFFFFFFFF, buf := [] },
        result := .none }) ∧
    (s.rx.bitCount.toNat < s.params.preambleMin →
      exec (.symZero t) s = .next { s with rx := s.rx.restart, result := .none }) ∧
    exec (.symInvalid t) s = .next { s with rx := s.rx.restart, result := .none }

/-- In Data, from a byte boundary: the eight symbols of a byte, bit 7 first, append the byte, fold it into
both checksums and end in EndBit; a byte beyond the capacity restarts the machine with nothing stored
(42_receive_engine.md R125, 20_memory.md R42, R45, 60_exceptions.md R245). -/
def Obligations.DataShiftsInAWholeByte : Prop :=
  ∀ (s : State) (b : Byte) (t : U32), s.rx.state = .data → s.rx.bitCount = 0 →
    (s.rx.buf.length ≠ s.params.pktCap →
      execAll ([7, 6, 5, 4, 3, 2, 1, 0].map fun j => if b.getLsbD j then .symOne t else .symZero t) s
        = .next { s with
          rx := { s.rx with
            state := .endBit, acc := 0, bitCount := 0, buf := s.rx.buf ++ [b],
            crc8 := crc8Next s.rx.crc8 b, crc32 := crc32Next s.rx.crc32 b },
          result := .none }) ∧
    (s.rx.buf.length = s.params.pktCap →
      execAll ([7, 6, 5, 4, 3, 2, 1, 0].map fun j => if b.getLsbD j then .symOne t else .symZero t) s
        = .next { s with rx := s.rx.restart, result := .none })

/-- In Data, one symbol: before the eighth bit the accumulator shifts left and takes the bit, and the count
goes up by one; an Invalid restarts at any count (42_receive_engine.md R125, one bit of it). -/
def Obligations.DataShiftsOneBit : Prop :=
  ∀ (s : State) (t : U32), s.rx.state = .data →
    (s.rx.bitCount.toNat ≤ 6 →
      exec (.symOne t) s = .next { s with
        rx := { s.rx with
          acc := BitVec.ofNat 8 (2 * s.rx.acc.toNat + 1), bitCount := s.rx.bitCount + 1 },
        result := .none } ∧
      exec (.symZero t) s = .next { s with
        rx := { s.rx with acc := BitVec.ofNat 8 (2 * s.rx.acc.toNat), bitCount := s.rx.bitCount + 1 },
        result := .none }) ∧
    exec (.symInvalid t) s = .next { s with rx := s.rx.restart, result := .none }

/-- In EndBit, a Zero goes on with another byte, an Invalid restarts (42_receive_engine.md R126, these two
of its branches). -/
def Obligations.EndBitGoesOnOrRestarts : Prop :=
  ∀ (s : State) (t : U32), s.rx.state = .endBit →
    exec (.symZero t) s = .next { s with rx := { s.rx with state := .data }, result := .none } ∧
    exec (.symInvalid t) s = .next { s with rx := s.rx.restart, result := .none }

/-- At the stop bit the packet is validated: short, then busy, then the checksum of the class, each with
its flags; it is queued only when its checksum is right and the queue was not almost full; the window
opens with an empty frame whatever the verdict (42_receive_engine.md R126 to R130). -/
def Obligations.StopBitValidatesThePacket : Prop :=
  ∀ (s : State) (t : U32), s.rx.state = .endBit →
    let opened (nack ack : Bool) (queue : List (List Byte)) : State := { s with
      rx := { s.rx with
        state := .ackReq, nack := nack, ack := ack, queue := queue,
        bitCount := 0, acc := 0, crc8 := 0, crc32 := 0xFFFFFFFF, buf := [] },
      result := .none }
    (s.rx.buf.length < s.params.pktMin →
      exec (.symOne t) s = .next (opened true false s.rx.queue)) ∧
    (s.params.pktMin ≤ s.rx.buf.length → s.params.queueCap - s.rx.queue.length ≤ 1 →
      exec (.symOne t) s = .next (opened true
        (decide (commandWord s.rx.buf = s.params.codes.busy ∧ s.rx.crc8 = 0)) s.rx.queue)) ∧
    (s.params.pktMin ≤ s.rx.buf.length → 2 ≤ s.params.queueCap - s.rx.queue.length →
      ((∃ c ∈ s.params.crc32Cmds, commandWord s.rx.buf = commandCode s.params.codes c) →
        (s.rx.crc32 = 0 →
          exec (.symOne t) s = .next (opened false false (s.rx.queue ++ [s.rx.buf]))) ∧
        (s.rx.crc32 ≠ 0 → exec (.symOne t) s = .next (opened true true s.rx.queue))) ∧
      ((∀ c ∈ s.params.crc32Cmds, commandWord s.rx.buf ≠ commandCode s.params.codes c) →
        (s.rx.crc8 = 0 →
          exec (.symOne t) s = .next (opened false false (s.rx.queue ++ [s.rx.buf]))) ∧
        (s.rx.crc8 ≠ 0 → exec (.symOne t) s = .next (opened true
          (decide (commandWord s.rx.buf = s.params.codes.zsuSalsa20Iv)) s.rx.queue))))

/-- An ackreq symbol outside AckReq jumps there, restarts the position, and is then counted as position 1,
or restarts the machine when the decoder is not selected; the in-flight packet is not touched by the jump.
In AckReq at a selected decoder the counting continues, saturating at 255, and the position's pulse is made
(42_receive_engine.md R121, R131). -/
def Obligations.AckreqSymbolOverridesEveryState : Prop :=
  ∀ (s : State) (t : U32),
    (s.rx.state ≠ .ackReq → s.rx.selected = true → exec (.symAckreq t) s = .next { s with
      rx := { s.rx with state := .ackReq, bitCount := 1 }, result := .none }) ∧
    (s.rx.state ≠ .ackReq → s.rx.selected = false →
      exec (.symAckreq t) s = .next { s with rx := s.rx.restart, result := .none }) ∧
    (s.rx.state = .ackReq → s.rx.selected = true →
      let n := min (s.rx.bitCount.toNat + 1) 255
      exec (.symAckreq t) s = .next { s with
        rx := { s.rx with bitCount := BitVec.ofNat 8 n },
        trace := s.trace ++
          (if (2 ≤ n ∧ n ≤ 4 ∧ s.rx.nack) ∨ (6 ≤ n ∧ n ≤ 8 ∧ s.rx.ack) then
            [.ackbit (ackDuration s.params.timing t s.rx.transferRate)] else []),
        result := .none })

/-- In AckReq: any symbol but Ackreq, and any symbol at a decoder that is not selected, restarts the
machine (42_receive_engine.md R131, its first line). -/
def Obligations.AckreqWindowEndsInRestart : Prop :=
  ∀ (s : State) (t : U32) (i : Instr), s.rx.state = .ackReq →
    (i ∈ [Instr.symZero t, .symOne t, .symInvalid t] ∨ (i = .symAckreq t ∧ s.rx.selected = false)) →
    exec i s = .next { s with rx := s.rx.restart, result := .none }

/-- A window of ackreq symbols at a selected decoder, from its opening: channel 1 pulses at positions 2 to 4
when `rx_nack`, channel 2 at positions 6 to 8 when `rx_ack`, each pulse for the ack duration of its own
symbol, and no other position ever pulses, however long the window (42_receive_engine.md R131, R132,
30_encoding.md R62). -/
def Obligations.AckreqWindowPulsesItsTwoChannels : Prop :=
  ∀ (s : State) (ts : List U32), s.rx.state = .ackReq → s.rx.bitCount = 0 → s.rx.selected = true →
    let pulse (t : U32) : HostCall := .ackbit (ackDuration s.params.timing t s.rx.transferRate)
    ∃ u : State, execAll (ts.map .symAckreq) s = .next u ∧
      u.rx = { s.rx with bitCount := BitVec.ofNat 8 (min ts.length 255) } ∧
      u.trace = s.trace ++ (if s.rx.nack then ((ts.drop 1).take 3).map pulse else [])
        ++ (if s.rx.ack then ((ts.drop 5).take 3).map pulse else []) ∧
      u.tx = s.tx ∧ u.es = s.es

/-- `rx_receive` is total: for every time in every state it completes, with at most one call, an `ackbit`
of the ack duration of `t`, and writes nothing but the receive machine (42_receive_engine.md R120). -/
def Obligations.ReceiveIsTotalWithAtMostOnePulse : Prop :=
  ∀ (s : State) (t : U32), ∃ u : State, exec (.rxReceive t) s = .next u ∧
    u.result = .none ∧
    (u.trace = s.trace ∨
      u.trace = s.trace ++ [.ackbit (ackDuration s.params.timing t s.rx.transferRate)]) ∧
    u = { s with rx := u.rx, trace := u.trace, result := .none } ∧
    u.rx.selected = s.rx.selected ∧ u.rx.serialNumber = s.rx.serialNumber ∧
    u.rx.decoderId = s.rx.decoderId ∧ u.rx.transferRate = s.rx.transferRate ∧
    u.rx.arbIgnore = s.rx.arbIgnore

/-- `rx_active()` returns the active flag and changes nothing (42_receive_engine.md R133). -/
def Obligations.ActiveReportsTheFlag : Prop :=
  ∀ s : State, exec .rxActive s = .next { s with result := .bool s.rx.active }

/-! ### The classifier -/

/-- `classify(t, r)`: the first of the zero, one and ackreq windows, of row `r` or of the fallback row,
that holds `t`; Invalid where none does (40_timing_classifier.md R100). -/
def Obligations.ClassifyTestsWindowsInOrder : Prop :=
  ∀ (s : State) (t : U32) (r : Rate),
    let w := timingRow s.params.timing r
    let f := s.params.timing.fallback
    let zero := (w.zeroMin.toNat ≤ t.toNat ∧ t.toNat ≤ w.zeroMax.toNat) ∨
      (f.zeroMin.toNat ≤ t.toNat ∧ t.toNat ≤ f.zeroMax.toNat)
    let one := (w.oneMin.toNat ≤ t.toNat ∧ t.toNat ≤ w.oneMax.toNat) ∨
      (f.oneMin.toNat ≤ t.toNat ∧ t.toNat ≤ f.oneMax.toNat)
    let ackreq := (w.ackreqMin.toNat ≤ t.toNat ∧ t.toNat ≤ w.ackreqMax.toNat) ∨
      (f.ackreqMin.toNat ≤ t.toNat ∧ t.toNat ≤ f.ackreqMax.toNat)
    (zero → exec (.classify t r) s = .next { s with result := .symbol .zero }) ∧
    (¬ zero → one → exec (.classify t r) s = .next { s with result := .symbol .one }) ∧
    (¬ zero → ¬ one → ackreq → exec (.classify t r) s = .next { s with result := .symbol .ackreq }) ∧
    (¬ zero → ¬ one → ¬ ackreq → exec (.classify t r) s = .next { s with result := .symbol .invalid })

/-- `ack_duration(t, r)`: the fallback row's pulse when `t` lies in the fallback ackreq window, else row
`r`'s (40_timing_classifier.md R104). -/
def Obligations.AckDurationPrefersTheFallbackRow : Prop :=
  ∀ (s : State) (t : U32) (r : Rate),
    let f := s.params.timing.fallback
    ((f.ackreqMin.toNat ≤ t.toNat ∧ t.toNat ≤ f.ackreqMax.toNat) →
      exec (.ackDuration t r) s = .next { s with result := .word f.ack }) ∧
    (¬ (f.ackreqMin.toNat ≤ t.toNat ∧ t.toNat ≤ f.ackreqMax.toNat) →
      exec (.ackDuration t r) s = .next { s with result := .word (timingRow s.params.timing r).ack })

/-! ### The checksums -/

/-- `crc8_next(c, b)`: eight rounds of right shift with feedback 0x8C over `c` exclusive-or `b` (41_crc.md
R110). -/
def Obligations.CrcEightNextFoldsAByte : Prop :=
  ∀ (s : State) (c b : Byte), exec (.crc8Next c b) s = .next { s with
    result := .byte ((List.range 8).foldl
      (fun c _ => if c.getLsbD 0 then (c >>> 1) ^^^ 0x8C#8 else c >>> 1) (c ^^^ b)) }

/-- `crc32_next(c, b)`: the eight bits of `b`, the most significant first, each shifted into `c` at the
least significant end with feedback 0x04C11DB7 from the bit that leaves (41_crc.md R112). -/
def Obligations.CrcThirtyTwoNextFoldsAByte : Prop :=
  ∀ (s : State) (c : U32) (b : Byte), exec (.crc32Next c b) s = .next { s with
    result := .word ([7, 6, 5, 4, 3, 2, 1, 0].foldl
      (fun c j => (if c.getLsbD 31 then 0x04C11DB7#32 else 0#32)
        ^^^ ((c <<< 1) ||| (b.getLsbD j).toNat)) c) }

/-- `crc32_value(c)`: four zero bytes folded into a copy of the register, and the operation writes no
register (41_crc.md R113). -/
def Obligations.CrcThirtyTwoValueAppendsFourZeros : Prop :=
  ∀ (s : State) (c : U32), exec (.crc32Value c) s = .next { s with
    result := .word (crc32Next (crc32Next (crc32Next (crc32Next c 0) 0) 0) 0) }

/-- The residue of Crc8: a byte string followed by its own Crc8 has Crc8 zero, and only that byte does it
(41_crc.md R111; the second clause is an inference from R110). -/
def Obligations.CrcEightResidueIsZero : Prop :=
  ∀ (p : List Byte) (b : Byte), crc8Of (p ++ [b]) = 0 ↔ b = crc8Of p

/-- The residue of "Crc32": the value of a register, most significant byte first, folded into that register
gives zero; and a register is zero exactly when its value is (41_crc.md R114, these two clauses). -/
def Obligations.CrcThirtyTwoResidueIsZero : Prop :=
  ∀ c : U32, crc32Fold c (be32Bytes (crc32Value c)) = 0 ∧ (c = 0 ↔ crc32Value c = 0)

/-- Both checksum functions are linear over exclusive-or (41_crc.md R116). -/
def Obligations.ChecksumsAreLinear : Prop :=
  (∀ a b x y : Byte, crc8Next (a ^^^ b) (x ^^^ y) = crc8Next a x ^^^ crc8Next b y) ∧
  (∀ (a b : U32) (x y : Byte), crc32Next (a ^^^ b) (x ^^^ y) = crc32Next a x ^^^ crc32Next b y)

/-! ### Arbitration -/

/-- `arb_respond(pos)` by the value of the position code: 255 starts a round; while silenced every other
code answers false; 0 to 62 read a bit, 64 to 126 its complement, 128 to 190 silence where it is set, 192
to 254 where it is clear; 63, 127 and 191 do nothing. `arb_ignore` is all that is written
(45_arbitration.md R210 to R218). -/
def Obligations.ArbRespondFollowsThePositionRanges : Prop :=
  ∀ (s : State) (pos : Byte),
    let n := pos.toNat
    let bit (j : Nat) : Bool := (s.rx.decoderId ++ s.rx.serialNumber).getLsbD j
    let answer (ignore b : Bool) : State :=
      { s with rx := { s.rx with arbIgnore := ignore }, result := .bool b }
    (n = 255 → exec (.arbRespond pos) s = .next (answer false true)) ∧
    (n ≠ 255 → s.rx.arbIgnore = true → exec (.arbRespond pos) s = .next (answer true false)) ∧
    (s.rx.arbIgnore = false →
      (n ≤ 62 → exec (.arbRespond pos) s = .next (answer false (bit n))) ∧
      (64 ≤ n → n ≤ 126 → exec (.arbRespond pos) s = .next (answer false (!bit (n - 64)))) ∧
      (128 ≤ n → n ≤ 190 → exec (.arbRespond pos) s = .next (answer (bit (n - 128)) false)) ∧
      (192 ≤ n → n ≤ 254 → exec (.arbRespond pos) s = .next (answer (!bit (n - 192)) false)) ∧
      (n = 63 ∨ n = 127 ∨ n = 191 → exec (.arbRespond pos) s = .next (answer false false)))

/-- The six classes of position codes as instructions: POS_NEW_ROUND, POS_NOOP, POS_READ_BIT,
POS_READ_COMPLEMENT, POS_PRUNE_SET, POS_PRUNE_CLEAR (45_arbitration.md R212 to R218). Bit index 63 and the
operand 3 of POS_NOOP are no encodings of these classes (30_encoding.md R74). -/
def Obligations.PositionClassesAnswer : Prop :=
  ∀ (s : State) (j : BitVec 6) (op : BitVec 2), j ≠ 63 → op ≠ 3 →
    let bit : Bool := (s.rx.decoderId ++ s.rx.serialNumber).getLsbD j.toNat
    let answer (ignore b : Bool) : State :=
      { s with rx := { s.rx with arbIgnore := ignore }, result := .bool b }
    exec .posNewRound s = .next (answer false true) ∧
    exec (.posNoop op) s = .next (answer s.rx.arbIgnore false) ∧
    (s.rx.arbIgnore = true →
      ∀ i ∈ [Instr.posReadBit j, .posReadComplement j, .posPruneSet j, .posPruneClear j],
        exec i s = .next (answer true false)) ∧
    (s.rx.arbIgnore = false →
      exec (.posReadBit j) s = .next (answer false bit) ∧
      exec (.posReadComplement j) s = .next (answer false (!bit)) ∧
      exec (.posPruneSet j) s = .next (answer bit false) ∧
      exec (.posPruneClear j) s = .next (answer (!bit) false))

/-- Two decoders whose identifiers differ only in bit 63 answer every run of position codes alike
(45_arbitration.md R210). -/
def Obligations.IdentifierTopBitIsNeverSeen : Prop :=
  ∀ (s : State) (codes : List Byte), ∃ u v : State,
    execAll (codes.map .arbRespond) s = .next u ∧
    execAll (codes.map .arbRespond)
      { s with rx := { s.rx with decoderId := s.rx.decoderId ^^^ 0x80000000#32 } } = .next v ∧
    v.result = u.result ∧ v.rx.arbIgnore = u.rx.arbIgnore

/-! ### The TransmitEngine -/

/-- `tx_init(c)` and `tx_set_transfer_rate(r)`: accepted when idle and the rate code is 0 to 4, refused with
no effect otherwise (44_transmit_engine.md R180, R181). -/
def Obligations.TransmitConfiguredOnlyWhileIdle : Prop :=
  ∀ (s : State) (c : TxConfig) (b : Byte),
    (∀ r, s.tx.state = .idle → c.rate.toNat = rateCode r →
      exec (.txInit c) s = .next { s with
        tx := { s.tx with
          rate := r, numPreamble := c.numPreamble, numAckreq := c.numAckreq, invert := c.invert },
        result := .bool true }) ∧
    ((s.tx.state ≠ .idle ∨ 4 < c.rate.toNat) →
      exec (.txInit c) s = .next { s with result := .bool false }) ∧
    (∀ r, s.tx.state = .idle → b.toNat = rateCode r →
      exec (.txSetTransferRate b) s = .next { s with
        tx := { s.tx with rate := r }, result := .bool true }) ∧
    ((s.tx.state ≠ .idle ∨ 4 < b.toNat) →
      exec (.txSetTransferRate b) s = .next { s with result := .bool false })

/-- `tx_packet(p)`: accepted when idle and of 1 to `PKT_CAP` bytes, refused with no effect otherwise
(44_transmit_engine.md R182). -/
def Obligations.TxPacketLoadsWhenIdle : Prop :=
  ∀ (s : State) (p : List Byte),
    (s.tx.state = .idle → 1 ≤ p.length → p.length ≤ s.params.pktCap →
      exec (.txPacket p) s = .next { s with
        tx := { s.tx with
          pkt := p, preCount := 0, ackCount := 0, byteIdx := 0, bitIdx := 8,
          state := if 0 < s.tx.numPreamble.toNat then .preamble else .packet },
        result := .bool true }) ∧
    ((s.tx.state ≠ .idle ∨ p.length = 0 ∨ s.params.pktCap < p.length) →
      exec (.txPacket p) s = .next { s with result := .bool false })

/-- `tx_transmit()` completes in every state: it toggles the polarity and reports it, inverted if
configured, before the calls of the window; it emits the duration of its state from the row `tx_rate`; it
writes no packet, no configuration and no other component (44_transmit_engine.md R183 to R187; in AckReq the
duration and the next state of R188, whose calls are in `AckreqTickCallsBack`). -/
def Obligations.TransmitTicksInEveryState : Prop :=
  ∀ s : State, ∃ (u : State) (cs : List HostCall), exec .txTransmit s = .next u ∧
    u = { s with tx := u.tx, trace := u.trace, result := u.result } ∧
    u.trace = s.trace
      ++ (if s.params.host.trackOutputs then [.trackOutputs (xor (!s.tx.polarity) s.tx.invert)] else [])
      ++ cs ∧
    (s.tx.state ≠ .ackReq → cs = []) ∧
    u.tx = { s.tx with
      polarity := !s.tx.polarity, state := u.tx.state, preCount := u.tx.preCount,
      ackCount := u.tx.ackCount, byteIdx := u.tx.byteIdx, bitIdx := u.tx.bitIdx } ∧
    let w := timingRow s.params.timing s.tx.rate
    let toggled := { s.tx with polarity := !s.tx.polarity }
    (s.tx.state = .idle → u.result = .word w.one ∧ u.tx = toggled) ∧
    (s.tx.state = .preamble → u.result = .word w.one ∧
      ((s.tx.preCount + 1).toNat < s.tx.numPreamble.toNat →
        u.tx = { toggled with preCount := s.tx.preCount + 1 }) ∧
      (s.tx.numPreamble.toNat ≤ (s.tx.preCount + 1).toNat →
        u.tx = { toggled with
          preCount := s.tx.preCount + 1, state := .packet, byteIdx := 0, bitIdx := 8 })) ∧
    (s.tx.state = .packet → s.tx.bitIdx = 8 →
      u.result = .word w.zero ∧ u.tx = { toggled with bitIdx := 7 }) ∧
    (s.tx.state = .packet → s.tx.bitIdx ≠ 8 →
      u.result = .word (bitDuration w ((byteAt s.tx.pkt s.tx.byteIdx).getLsbD s.tx.bitIdx.val)) ∧
      (s.tx.bitIdx ≠ 0 →
        u.tx = { toggled with bitIdx := u.tx.bitIdx } ∧ u.tx.bitIdx.val + 1 = s.tx.bitIdx.val) ∧
      (s.tx.bitIdx = 0 → u.tx = { toggled with
        byteIdx := s.tx.byteIdx + 1, bitIdx := 8,
        state := if s.tx.byteIdx + 1 = s.tx.pkt.length then .packetEnd else .packet })) ∧
    (s.tx.state = .packetEnd → u.result = .word w.one ∧ u.tx = { toggled with
      ackCount := 0, state := if 0 < s.tx.numAckreq.toNat then .ackReq else .idle }) ∧
    (s.tx.state = .ackReq → u.result = .word w.ackreq ∧ u.tx = { toggled with
      ackCount := s.tx.ackCount + 1,
      state := if s.tx.ackCount + 1 = s.tx.numAckreq then .idle else .ackReq })

/-- An ackreq tick makes the registered callbacks among: begin on the first tick, channel 1 on ticks 2 to 4,
channel 2 on ticks 6 to 8, end on the last; the engine is idle after the last and stays otherwise
(44_transmit_engine.md R188, 70_reset_and_hazards.md R272). -/
def Obligations.AckreqTickCallsBack : Prop :=
  ∀ s : State, s.tx.state = .ackReq →
    let n := s.tx.ackCount + 1
    let h := s.params.host
    exec .txTransmit s = .next { s with
      tx := { s.tx with
        polarity := !s.tx.polarity, ackCount := n,
        state := if n = s.tx.numAckreq then .idle else .ackReq },
      trace := s.trace
        ++ (if h.trackOutputs then [.trackOutputs (xor (!s.tx.polarity) s.tx.invert)] else [])
        ++ (if n.toNat = 1 ∧ h.ackreqBegin then [.ackreqBegin] else [])
        ++ (if 2 ≤ n.toNat ∧ n.toNat ≤ 4 ∧ h.ackreqChannel1 then [.ackreqChannel1 n] else [])
        ++ (if 6 ≤ n.toNat ∧ n.toNat ≤ 8 ∧ h.ackreqChannel2 then [.ackreqChannel2 n] else [])
        ++ (if n = s.tx.numAckreq ∧ h.ackreqEnd then [.ackreqEnd] else []),
      result := .word (timingRow s.params.timing s.tx.rate).ackreq }

/-- The emitted frame: after an accepted `tx_packet(p)`, the ticks return exactly the durations of the
frame of `p`, the engine is idle after the last of them, and from then on every tick returns the one
duration; at no point before the end of the frame is the engine idle (44_transmit_engine.md R190). -/
def Obligations.TransmitEmitsTheFrame : Prop :=
  ∀ (s s0 : State) (p : List Byte) (extra : Nat),
    exec (.txPacket p) s = .next s0 → s0.result = .bool true →
    let w := timingRow s.params.timing s.tx.rate
    let frame := frameDurations w s.tx.numPreamble.toNat p s.tx.numAckreq.toNat
    frame.length = s.tx.numPreamble.toNat + 9 * p.length + 1 + s.tx.numAckreq.toNat ∧
    (∃ u : State,
      transmitN (frame.length + extra) s0 = some (frame ++ List.replicate extra w.one, u) ∧
      u.tx.state = .idle) ∧
    (∀ n < frame.length, ∃ (ds : List U32) (v : State), transmitN n s0 = some (ds, v) ∧ v.tx.state ≠ .idle)

/-- The round trip: what a TransmitEngine emits for `p`, fed edge by edge to a ReceiveEngine at the same
rate (or at any rate when the sender uses the fallback rate), leaves exactly `p` in the receive buffer
before the stop bit; and after the stop bit the queue holds `p` when the queue was empty, `p` is long
enough and its trailer is right for its class (44_transmit_engine.md R192). -/
def Obligations.TransmitReceiveRoundTrip : Prop :=
  ∀ (a a0 d : State) (p : List Byte),
    exec (.txPacket p) a = .next a0 → a0.result = .bool true →
    d.params = a.params → timingWellFormed a.params.timing = true →
    a.params.preambleMin ≤ a.tx.numPreamble.toNat →
    d.rx.state = .preamble → (d.rx.transferRate = a.tx.rate ∨ a.tx.rate = .fallback) →
    ∃ (ds : List U32) (last : U32) (a1 a2 d1 d2 : State),
      transmitN (a.tx.numPreamble.toNat + 9 * p.length) a0 = some (ds, a1) ∧
      exec .txTransmit a1 = .next a2 ∧ a2.result = .word last ∧
      execAll (ds.map .rxReceive) d = .next d1 ∧
      d1.rx.state = .endBit ∧ d1.rx.buf = p ∧ d1.rx.queue = d.rx.queue ∧
      exec (.rxReceive last) d1 = .next d2 ∧
      (a.params.pktMin ≤ p.length → 2 ≤ a.params.queueCap → d.rx.queue = [] →
        trailerOk a.params p = true → d2.rx.queue = [p])

/-! ### The EntrySequenceDetector -/

/-- One pair: an irrelevant index clears the sequence; the index of the last recorded pair is ignored,
whatever the value; a first pair that is no start of a sequence clears it (46_entry_sequence.md R221,
R222, R224). No hook is called in these cases. -/
def Obligations.EntryWriteClearsOrIgnores : Prop :=
  ∀ (s : State) (idx : U32) (val : Byte),
    ((idx ≠ 7 ∧ idx ≠ 104 ∧ idx ≠ 105) →
      exec (.entryWrite idx val) s = .next { s with es := { s.es with buf := [] }, result := .none }) ∧
    (∀ (l : List EntryPair) (q : EntryPair), (idx = 7 ∨ idx = 104 ∨ idx = 105) →
      s.es.buf = l ++ [q] → q.index = idx →
      exec (.entryWrite idx val) s = .next { s with result := .none }) ∧
    (s.es.buf = [] → val ≠ 0xFE → val ≠ 0xFF →
      exec (.entryWrite idx val) s = .next { s with es := { s.es with buf := [] }, result := .none })

/-- A pair of a relevant index that is not the last recorded one is appended and compared with the target
that the first pair selects: a mismatch clears the sequence, a match short of the end is kept, the last
match calls the registered hook once and clears the sequence (46_entry_sequence.md R223 to R225). -/
def Obligations.EntryWriteMatchesTheTarget : Prop :=
  ∀ (s : State) (first : Byte) (target : List EntryPair) (hook : List HostCall) (idx : U32) (val : Byte),
    (idx = 7 ∨ idx = 104 ∨ idx = 105) → (∀ x ∈ s.es.buf.getLast?, x.index ≠ idx) →
    let now := s.es.buf ++ [⟨idx, val⟩]
    now.head?.map EntryPair.value = some first →
    ((first = 0xFE ∧ target = s.params.seqZpp.toList ∧
        hook = if s.params.host.zppEntry then [.zppEntry] else []) ∨
      (first = 0xFF ∧ target = (seqFwFor s.params s.es.decoderId).toList ∧
        hook = if s.params.host.zsuEntry then [.zsuEntry] else [])) →
    (now ≠ target.take now.length →
      exec (.entryWrite idx val) s = .next { s with es := { s.es with buf := [] }, result := .none }) ∧
    (now = target.take now.length → now.length < target.length →
      exec (.entryWrite idx val) s = .next { s with es := { s.es with buf := now }, result := .none }) ∧
    (now = target → exec (.entryWrite idx val) s = .next { s with
      es := { s.es with buf := [] }, trace := s.trace ++ hook, result := .none })

/-- The exact unlock sequence, of a well-formed configuration, calls its hook exactly once and leaves the
detector empty: the ZPP sequence, and the firmware/ZSU sequence of the detector's decoder id. The sequences
that hold after reset have the whole shape of R226 for every decoder id: 7 and 9 pairs, a first value of 0xFE
and 0xFF, the relevant indices with consecutive ones different, the all-zero tail, and no pair outside 1 to 4
that depends on the id (46_entry_sequence.md R225, R226, R227, its first clause; 30_encoding.md R75). -/
def Obligations.UnlockSequenceCallsItsHookOnce : Prop :=
  (∀ s : State, s.es.buf = [] →
    (sequenceWellFormed 0xFE s.params.seqZpp.toList = true →
      execAll (s.params.seqZpp.toList.map fun x => .entryWrite x.index x.value) s = .next { s with
        trace := s.trace ++ (if s.params.host.zppEntry then [.zppEntry] else []), result := .none }) ∧
    (sequenceWellFormed 0xFF (seqFwFor s.params s.es.decoderId).toList = true →
      execAll ((seqFwFor s.params s.es.decoderId).toList.map fun x => .entryWrite x.index x.value) s
        = .next { s with
          trace := s.trace ++ (if s.params.host.zsuEntry then [.zsuEntry] else []), result := .none })) ∧
  SequencesInShape State.reset.params

/-- A hook is called only by the pair that completes a whole unlock sequence: the sequence recorded so far
with that pair is exactly the target (46_entry_sequence.md R224, R225). -/
def Obligations.HookOnlyOnTheWholeSequence : Prop :=
  ∀ (s t : State) (idx : U32) (val : Byte), exec (.entryWrite idx val) s = .next t →
    t.trace ≠ s.trace →
    (t.trace = s.trace ++ [.zppEntry] ∧ s.es.buf ++ [⟨idx, val⟩] = s.params.seqZpp.toList) ∨
    (t.trace = s.trace ++ [.zsuEntry] ∧
      s.es.buf ++ [⟨idx, val⟩] = (seqFwFor s.params s.es.decoderId).toList)

/-! ### Reset -/

/-- `reset` gives every element the value of 10_state.md R36, from its construction arguments, and makes no
host call (70_reset_and_hazards.md R270). -/
def Obligations.ResetGivesEveryElementItsValue : Prop :=
  ∀ (s : State) (a : ResetArgs), exec (.reset .all a) s = .next { s with
    rx := {
      state := .preamble, bitCount := 0, acc := 0, crc8 := 0, crc32 := 0xFFFFFFFF, buf := [], queue := [],
      selected := false, active := false, nack := false, ack := false,
      serialNumber := a.serialNumber, decoderId := a.decoderId, transferRate := a.transferRate,
      arbIgnore := false },
    tx := {
      state := .idle, pkt := [], rate := a.txRate, numPreamble := a.txNumPreamble,
      numAckreq := a.txNumAckreq, invert := a.txInvert, preCount := 0, ackCount := 0, byteIdx := 0,
      bitIdx := 8, polarity := false },
    es := { buf := [], decoderId := a.decoderId },
    halted := false, result := .none }

/-- The components reset one at a time, in any order, are the same as all at once
(70_reset_and_hazards.md R270). -/
def Obligations.ResetOneByOneIsResetAll : Prop :=
  ∀ (s : State) (a : ResetArgs) (l : List ResetScope), l.Perm [.receive, .transmit, .entry] →
    execAll (l.map fun sc => .reset sc a) s = exec (.reset .all a) s

/-- The model's state after reset is what `reset` with the OPEN construction arguments gives. -/
def Obligations.ResetStateIsConstructed : Prop :=
  exec (.reset .all Config.construction) State.reset = .next State.reset

/-! ### Rules of the whole machine -/

/-- No operation of one component writes the state of another (10_state.md R34), and the reset of one
component constructs it as the reset of all does and writes no other (70_reset_and_hazards.md R270). That a
reset names its component by an operand is the model's choice (log 15), and so is the flag `halted`, which
the reset of the ReceiveEngine clears and that of another component keeps (log 8). -/
def Obligations.ComponentsShareNoState : Prop :=
  (∀ (i : Instr) (s t : State), exec i s = .next t → (∀ sc a, i ≠ .reset sc a) →
    ((∀ c, i ≠ .txInit c) → (∀ r, i ≠ .txSetTransferRate r) → (∀ p, i ≠ .txPacket p) → i ≠ .txTransmit →
      t.tx = s.tx) ∧
    ((∀ idx val, i ≠ .entryWrite idx val) → t.es = s.es) ∧
    ((∃ c, i = .txInit c) ∨ (∃ r, i = .txSetTransferRate r) ∨ (∃ p, i = .txPacket p) ∨ i = .txTransmit ∨
      (∃ idx val, i = .entryWrite idx val) → t.rx = s.rx)) ∧
  (∀ (s : State) (a : ResetArgs), ∃ u : State, exec (.reset .all a) s = .next u ∧
    exec (.reset .receive a) s = .next { s with rx := u.rx, halted := false, result := .none } ∧
    exec (.reset .transmit a) s = .next { s with tx := u.tx, result := .none } ∧
    exec (.reset .entry a) s = .next { s with es := u.es, result := .none })

/-- The trace is append-only, and no instruction changes a parameter or the pending requests (20_memory.md R48,
10_state.md R33). Which calls an instruction appends is said by the statements about that instruction. -/
def Obligations.TraceIsAppendOnly : Prop :=
  ∀ (i : Instr) (s t : State), exec i s = .next t →
    (∃ cs : List HostCall, t.trace = s.trace ++ cs) ∧ t.params = s.params ∧ t.requests = s.requests

/-- The selected flag is written by a Ping only (directly, or dequeued by `rx_execute`), and by `reset`
(10_state.md R17). -/
def Obligations.OnlyPingWritesSelected : Prop :=
  ∀ (i : Instr) (s t : State), exec i s = .next t → t.rx.selected ≠ s.rx.selected →
    (∃ sn did tail, i = .ping sn did tail) ∨ (∃ sc a, i = .reset sc a) ∨
    (i = .rxExecute ∧ ∃ p sn did tail, s.rx.queue.head? = some p ∧
      decodePacket s.params.codes p = .ok (.ping sn did tail))

/-- Without a `reset`, the identity never changes, the rate register never goes down, and the active flag
never falls (10_state.md R18, R21; 70_reset_and_hazards.md R278). -/
def Obligations.ConfigurationOnlyClimbsUntilReset : Prop :=
  ∀ (i : Instr) (s t : State), exec i s = .next t → (∀ sc a, i ≠ .reset sc a) →
    t.rx.serialNumber = s.rx.serialNumber ∧ t.rx.decoderId = s.rx.decoderId ∧
    t.es.decoderId = s.es.decoderId ∧ rateCode s.rx.transferRate ≤ rateCode t.rx.transferRate ∧
    (s.rx.active = true → t.rx.active = true)

/-- Every step keeps the invariants between operations: the queue never fills, what is queued is valid,
the buffer never exceeds its capacity, the counts fit their state, both checksums are those of the buffer,
the transmit indices lie in the packet, the entry sequence is part of its target
(42_receive_engine.md R135). -/
def Obligations.EveryStepKeepsTheInvariant : Prop :=
  ∀ s t : State, s.Inv → step s = .next t → t.Inv

/-- The invariant holds right after reset. -/
def Obligations.ResetStateHasTheInvariant : Prop := State.reset.Inv

/-- No instruction fails for a reason inside the block: from a state with the invariant, under a `PKT_MIN`
that leaves room for a command, every instruction has a next state (60_exceptions.md R240). Two kinds of
these next states are the model's choice: the one with `halted` set where a handler behind `ext_execute` does
not return, where `rx_execute` may never complete (43_execute_dispatch.md R173; log 8), and those of
instruction terms without an encoding (log 19). -/
def Obligations.EveryInstructionCompletes : Prop :=
  ∀ (i : Instr) (s : State), s.Inv → 4 ≤ s.params.pktMin → ∃ t : State, exec i s = .next t
end

