-- ==== Sys2Proof/Laws/State.lean ====
section
/-!
SUPPORT. One lemma per field per update of the state, so that no proof unfolds a record update.
-/

namespace Sys2Proof.Machine

variable (s : State) (rx : ReceiveEngine) (tx : TransmitEngine) (es : EntryDetector)
  (r : OpResult) (cs : List HostCall) (b : Bool)

@[simp] theorem State.withRx_params : (s.withRx rx).params = s.params := rfl
@[simp] theorem State.withRx_rx : (s.withRx rx).rx = rx := rfl
@[simp] theorem State.withRx_tx : (s.withRx rx).tx = s.tx := rfl
@[simp] theorem State.withRx_es : (s.withRx rx).es = s.es := rfl
@[simp] theorem State.withRx_result : (s.withRx rx).result = s.result := rfl
@[simp] theorem State.withRx_trace : (s.withRx rx).trace = s.trace := rfl
@[simp] theorem State.withRx_halted : (s.withRx rx).halted = s.halted := rfl
@[simp] theorem State.withRx_requests : (s.withRx rx).requests = s.requests := rfl
@[simp] theorem State.withRx_cvAnswers : (s.withRx rx).cvAnswers = s.cvAnswers := rfl
@[simp] theorem State.withRx_extAnswers : (s.withRx rx).extAnswers = s.extAnswers := rfl
@[simp] theorem State.withRx_cvDraws : (s.withRx rx).cvDraws = s.cvDraws := rfl
@[simp] theorem State.withRx_extDraws : (s.withRx rx).extDraws = s.extDraws := rfl

@[simp] theorem State.withTx_params : (s.withTx tx).params = s.params := rfl
@[simp] theorem State.withTx_rx : (s.withTx tx).rx = s.rx := rfl
@[simp] theorem State.withTx_tx : (s.withTx tx).tx = tx := rfl
@[simp] theorem State.withTx_es : (s.withTx tx).es = s.es := rfl
@[simp] theorem State.withTx_result : (s.withTx tx).result = s.result := rfl
@[simp] theorem State.withTx_trace : (s.withTx tx).trace = s.trace := rfl
@[simp] theorem State.withTx_halted : (s.withTx tx).halted = s.halted := rfl
@[simp] theorem State.withTx_requests : (s.withTx tx).requests = s.requests := rfl
@[simp] theorem State.withTx_cvAnswers : (s.withTx tx).cvAnswers = s.cvAnswers := rfl
@[simp] theorem State.withTx_extAnswers : (s.withTx tx).extAnswers = s.extAnswers := rfl
@[simp] theorem State.withTx_cvDraws : (s.withTx tx).cvDraws = s.cvDraws := rfl
@[simp] theorem State.withTx_extDraws : (s.withTx tx).extDraws = s.extDraws := rfl

@[simp] theorem State.withEs_params : (s.withEs es).params = s.params := rfl
@[simp] theorem State.withEs_rx : (s.withEs es).rx = s.rx := rfl
@[simp] theorem State.withEs_tx : (s.withEs es).tx = s.tx := rfl
@[simp] theorem State.withEs_es : (s.withEs es).es = es := rfl
@[simp] theorem State.withEs_result : (s.withEs es).result = s.result := rfl
@[simp] theorem State.withEs_trace : (s.withEs es).trace = s.trace := rfl
@[simp] theorem State.withEs_halted : (s.withEs es).halted = s.halted := rfl
@[simp] theorem State.withEs_requests : (s.withEs es).requests = s.requests := rfl
@[simp] theorem State.withEs_cvAnswers : (s.withEs es).cvAnswers = s.cvAnswers := rfl
@[simp] theorem State.withEs_extAnswers : (s.withEs es).extAnswers = s.extAnswers := rfl
@[simp] theorem State.withEs_cvDraws : (s.withEs es).cvDraws = s.cvDraws := rfl
@[simp] theorem State.withEs_extDraws : (s.withEs es).extDraws = s.extDraws := rfl

@[simp] theorem State.done_params : (s.done r).params = s.params := rfl
@[simp] theorem State.done_rx : (s.done r).rx = s.rx := rfl
@[simp] theorem State.done_tx : (s.done r).tx = s.tx := rfl
@[simp] theorem State.done_es : (s.done r).es = s.es := rfl
@[simp] theorem State.done_result : (s.done r).result = r := rfl
@[simp] theorem State.done_trace : (s.done r).trace = s.trace := rfl
@[simp] theorem State.done_halted : (s.done r).halted = s.halted := rfl
@[simp] theorem State.done_requests : (s.done r).requests = s.requests := rfl
@[simp] theorem State.done_cvAnswers : (s.done r).cvAnswers = s.cvAnswers := rfl
@[simp] theorem State.done_extAnswers : (s.done r).extAnswers = s.extAnswers := rfl
@[simp] theorem State.done_cvDraws : (s.done r).cvDraws = s.cvDraws := rfl
@[simp] theorem State.done_extDraws : (s.done r).extDraws = s.extDraws := rfl

@[simp] theorem State.calls_params : (s.calls cs).params = s.params := rfl
@[simp] theorem State.calls_rx : (s.calls cs).rx = s.rx := rfl
@[simp] theorem State.calls_tx : (s.calls cs).tx = s.tx := rfl
@[simp] theorem State.calls_es : (s.calls cs).es = s.es := rfl
@[simp] theorem State.calls_result : (s.calls cs).result = s.result := rfl
@[simp] theorem State.calls_trace : (s.calls cs).trace = s.trace ++ cs := rfl
@[simp] theorem State.calls_halted : (s.calls cs).halted = s.halted := rfl
@[simp] theorem State.calls_requests : (s.calls cs).requests = s.requests := rfl
@[simp] theorem State.calls_cvAnswers : (s.calls cs).cvAnswers = s.cvAnswers := rfl
@[simp] theorem State.calls_extAnswers : (s.calls cs).extAnswers = s.extAnswers := rfl
@[simp] theorem State.calls_cvDraws : (s.calls cs).cvDraws = s.cvDraws := rfl
@[simp] theorem State.calls_extDraws : (s.calls cs).extDraws = s.extDraws := rfl

@[simp] theorem State.withAck_params : (s.withAck b).params = s.params := rfl
@[simp] theorem State.withAck_rx : (s.withAck b).rx = { s.rx with ack := b } := rfl
@[simp] theorem State.withAck_tx : (s.withAck b).tx = s.tx := rfl
@[simp] theorem State.withAck_es : (s.withAck b).es = s.es := rfl
@[simp] theorem State.withAck_result : (s.withAck b).result = s.result := rfl
@[simp] theorem State.withAck_trace : (s.withAck b).trace = s.trace := rfl
@[simp] theorem State.withAck_halted : (s.withAck b).halted = s.halted := rfl
@[simp] theorem State.withAck_requests : (s.withAck b).requests = s.requests := rfl

@[simp] theorem State.dropCvAnswer_params : s.dropCvAnswer.params = s.params := by
  unfold State.dropCvAnswer; split <;> rfl
@[simp] theorem State.dropCvAnswer_rx : s.dropCvAnswer.rx = s.rx := by
  unfold State.dropCvAnswer; split <;> rfl
@[simp] theorem State.dropCvAnswer_tx : s.dropCvAnswer.tx = s.tx := by
  unfold State.dropCvAnswer; split <;> rfl
@[simp] theorem State.dropCvAnswer_es : s.dropCvAnswer.es = s.es := by
  unfold State.dropCvAnswer; split <;> rfl
@[simp] theorem State.dropCvAnswer_result : s.dropCvAnswer.result = s.result := by
  unfold State.dropCvAnswer; split <;> rfl
@[simp] theorem State.dropCvAnswer_trace : s.dropCvAnswer.trace = s.trace := by
  unfold State.dropCvAnswer; split <;> rfl
@[simp] theorem State.dropCvAnswer_halted : s.dropCvAnswer.halted = s.halted := by
  unfold State.dropCvAnswer; split <;> rfl
@[simp] theorem State.dropCvAnswer_requests : s.dropCvAnswer.requests = s.requests := by
  unfold State.dropCvAnswer; split <;> rfl

@[simp] theorem State.dropExtAnswer_params : s.dropExtAnswer.params = s.params := by
  unfold State.dropExtAnswer; split <;> rfl
@[simp] theorem State.dropExtAnswer_rx : s.dropExtAnswer.rx = s.rx := by
  unfold State.dropExtAnswer; split <;> rfl
@[simp] theorem State.dropExtAnswer_tx : s.dropExtAnswer.tx = s.tx := by
  unfold State.dropExtAnswer; split <;> rfl
@[simp] theorem State.dropExtAnswer_es : s.dropExtAnswer.es = s.es := by
  unfold State.dropExtAnswer; split <;> rfl
@[simp] theorem State.dropExtAnswer_result : s.dropExtAnswer.result = s.result := by
  unfold State.dropExtAnswer; split <;> rfl
@[simp] theorem State.dropExtAnswer_trace : s.dropExtAnswer.trace = s.trace := by
  unfold State.dropExtAnswer; split <;> rfl
@[simp] theorem State.dropExtAnswer_halted : s.dropExtAnswer.halted = s.halted := by
  unfold State.dropExtAnswer; split <;> rfl
@[simp] theorem State.dropExtAnswer_requests : s.dropExtAnswer.requests = s.requests := by
  unfold State.dropExtAnswer; split <;> rfl

end Sys2Proof.Machine
end

