-- ==== Sys2Proof/Laws/Ops.lean ====
section
/-!
SUPPORT. One lemma per shared operation that says once everything it can do.
-/

namespace Sys2Proof.Machine

/-! ### `rx_clear_frame`, `rx_reset`, buffer and queue -/

/-- `rx_clear_frame` (42_receive_engine.md R122), field by field. -/
theorem ReceiveEngine.clearFrame_eq (rx : ReceiveEngine) :
    rx.clearFrame = { rx with bitCount := 0, acc := 0, crc8 := 0, crc32 := 0xFFFFFFFF, buf := [] } := rfl

/-- `rx_reset` (42_receive_engine.md R123), field by field. -/
theorem ReceiveEngine.restart_eq (rx : ReceiveEngine) :
    rx.restart = { rx with
      state := .preamble, bitCount := 0, acc := 0, crc8 := 0, crc32 := 0xFFFFFFFF, buf := [],
      nack := false, ack := false } := rfl

/-- `BufAppend` stores the byte, or restarts the machine when the buffer is full (20_memory.md R45). -/
theorem ReceiveEngine.bufAppend_cases (k : Params) (rx : ReceiveEngine) (b : Byte) :
    (rx.buf.length = k.pktCap ∧ rx.bufAppend k b = rx.restart) ∨
      (rx.buf.length ≠ k.pktCap ∧ rx.bufAppend k b = { rx with buf := rx.buf ++ [b] }) := by
  unfold ReceiveEngine.bufAppend
  split
  · exact .inl ⟨‹_›, rfl⟩
  · exact .inr ⟨‹_›, rfl⟩

/-- `sat_inc_8` counts up to 255 (00_scope.md R7). -/
theorem satInc8_toNat (v : Byte) : (satInc8 v).toNat = min (v.toNat + 1) 255 := by
  unfold satInc8
  split
  · subst_vars; rfl
  · next h =>
    have h' : v.toNat ≠ 255 := fun e => h (BitVec.eq_of_toNat_eq e)
    have := v.isLt
    rw [BitVec.toNat_add, show (1 : Byte).toNat = 1 from rfl]
    omega

/-! ### Host answers -/

/-- One CV call: recorded, its answer taken and assigned to `rx_ack`. -/
theorem State.askCv_eq (s : State) (c : HostCall) :
    s.askCv c = { s.dropCvAnswer with
      rx := { s.rx with ack := s.cvAnswer }, trace := s.trace ++ [c] } := by
  unfold State.askCv State.withAck State.withRx State.calls State.dropCvAnswer
  cases h : s.cvAnswers <;> rfl

/-- What `ext_execute` can do: absent, it answers false; present, one call is recorded, and either its
Boolean goes to `rx_ack` or the run is over (43_execute_dispatch.md R172, R173). -/
theorem State.askExt_cases (s : State) (cmd : U32) (p : List Byte) :
    (s.params.host.extExecute = false ∧ s.askExt cmd p = s.withAck false) ∨
    (∃ b, s.params.host.extExecute = true ∧ s.extAnswer = .returns b ∧
      s.askExt cmd p = { s.dropExtAnswer with
        rx := { s.rx with ack := b },
        trace := s.trace ++ [.extExecute cmd p s.rx.decoderId] }) ∨
    (s.params.host.extExecute = true ∧ s.extAnswer = .neverReturns ∧
      s.askExt cmd p = { s.dropExtAnswer with
        trace := s.trace ++ [.extExecute cmd p s.rx.decoderId], halted := true }) := by
  unfold State.askExt
  cases hx : s.params.host.extExecute
  · exact .inl ⟨rfl, rfl⟩
  · cases ha : s.extAnswer with
    | returns b =>
      refine .inr (.inl ⟨b, rfl, rfl, ?_⟩)
      unfold State.calls State.withAck State.withRx State.dropExtAnswer
      cases h : s.extAnswers <;> rfl
    | neverReturns =>
      refine .inr (.inr ⟨rfl, rfl, ?_⟩)
      unfold State.calls State.dropExtAnswer
      cases h : s.extAnswers <;> rfl

/-- The gate: the action when selected, nothing otherwise (43_execute_dispatch.md R152). -/
theorem State.gated_cases (s : State) (run : State → State) :
    (s.rx.selected = true ∧ s.gated run = run s) ∨ (s.rx.selected = false ∧ s.gated run = s) := by
  unfold State.gated
  cases h : s.rx.selected
  · exact .inr ⟨rfl, rfl⟩
  · exact .inl ⟨rfl, rfl⟩

/-! ### Rates and arbitration -/

/-- A rate request is rejected below the register, adopted otherwise (43_execute_dispatch.md R153). -/
theorem State.requestRate_cases (r : Rate) (s : State) :
    (rateCode r < rateCode s.rx.transferRate ∧ s.requestRate r = s.withAck true) ∨
    (rateCode s.rx.transferRate ≤ rateCode r ∧
      s.requestRate r = s.withRx { s.rx with transferRate := r, ack := false }) := by
  unfold State.requestRate
  split
  · exact .inl ⟨‹_›, rfl⟩
  · exact .inr ⟨by omega, rfl⟩

/-- A position code writes `arb_ignore` and nothing else of the ReceiveEngine (45_arbitration.md R211). -/
theorem State.respond_eq (s : State) (code : PositionCode) :
    s.respond code = { s with
      rx := { s.rx with arbIgnore := s.rx.arbIgnoreAfter code },
      result := .bool (s.rx.arbAnswer code) } := rfl

/-! ### The validator -/

/-- What `validate` can decide: short, busy, or the checksum test of the class (42_receive_engine.md
R127). -/
theorem ReceiveEngine.validate_cases (k : Params) (rx : ReceiveEngine) :
    (rx.buf.length < k.pktMin ∧ rx.validate k = ⟨true, false, false⟩) ∨
    (k.pktMin ≤ rx.buf.length ∧ rx.busy k = true ∧
      rx.validate k = ⟨true, decide (commandWord rx.buf = k.codes.busy) && decide (rx.crc8 = 0), false⟩) ∨
    (k.pktMin ≤ rx.buf.length ∧ rx.busy k = false ∧
      rx.validate k = checksumVerdict k (commandWord rx.buf) (decide (rx.crc8 ≠ 0))
        (decide (rx.crc32 ≠ 0))) := by
  unfold ReceiveEngine.validate
  split
  · exact .inl ⟨‹_›, rfl⟩
  · cases hb : rx.busy k
    · exact .inr (.inr ⟨by omega, rfl, rfl⟩)
    · exact .inr (.inl ⟨by omega, rfl, rfl⟩)

/-- A packet is queued by the checksum test exactly when its class's register is zero. -/
theorem checksumVerdict_queued (k : Params) (cmd : U32) (bad8 bad32 : Bool) :
    (checksumVerdict k cmd bad8 bad32).queued = !(if isCrc32Class k cmd then bad32 else bad8) := by
  unfold checksumVerdict
  cases isCrc32Class k cmd
  · simp only [Bool.false_eq_true, if_false]
    split <;> rfl
  · rfl

/-! ### The classifier -/

/-- The ordered test of 40_timing_classifier.md R100. -/
theorem classify_cases (tm : Timing) (t : U32) (r : Rate) :
    ((inZero (timingRow tm r) t || inZero tm.fallback t) = true ∧ classify tm t r = .zero) ∨
    ((inZero (timingRow tm r) t || inZero tm.fallback t) = false ∧
      (inOne (timingRow tm r) t || inOne tm.fallback t) = true ∧ classify tm t r = .one) ∨
    ((inZero (timingRow tm r) t || inZero tm.fallback t) = false ∧
      (inOne (timingRow tm r) t || inOne tm.fallback t) = false ∧
      (inAckreq (timingRow tm r) t || inAckreq tm.fallback t) = true ∧ classify tm t r = .ackreq) ∨
    ((inZero (timingRow tm r) t || inZero tm.fallback t) = false ∧
      (inOne (timingRow tm r) t || inOne tm.fallback t) = false ∧
      (inAckreq (timingRow tm r) t || inAckreq tm.fallback t) = false ∧ classify tm t r = .invalid) := by
  unfold classify
  cases inZero (timingRow tm r) t || inZero tm.fallback t <;>
    cases inOne (timingRow tm r) t || inOne tm.fallback t <;>
    cases inAckreq (timingRow tm r) t || inAckreq tm.fallback t <;> simp

/-! ### The TransmitEngine -/

/-- A tick leaves the loaded packet and the configuration as they are (44_transmit_engine.md R183 to
R188). -/
theorem TransmitEngine.tick_keeps (tx : TransmitEngine) :
    tx.tick.pkt = tx.pkt ∧ tx.tick.rate = tx.rate ∧ tx.tick.numPreamble = tx.numPreamble ∧
      tx.tick.numAckreq = tx.numAckreq ∧ tx.tick.invert = tx.invert ∧ tx.tick.polarity = !tx.polarity := by
  unfold TransmitEngine.tick TransmitEngine.advance
  cases tx.state with
  | idle => (refine ⟨rfl, rfl, rfl, rfl, rfl, ?_⟩; simp)
  | preamble =>
    simp only [TransmitEngine.preambleTick]
    split <;> (refine ⟨rfl, rfl, rfl, rfl, rfl, ?_⟩; simp)
  | packet =>
    simp only [TransmitEngine.packetTick]
    split
    · (refine ⟨rfl, rfl, rfl, rfl, rfl, ?_⟩; simp)
    · split <;> (refine ⟨rfl, rfl, rfl, rfl, rfl, ?_⟩; simp)
  | packetEnd => (refine ⟨rfl, rfl, rfl, rfl, rfl, ?_⟩; simp)
  | ackReq => (refine ⟨rfl, rfl, rfl, rfl, rfl, ?_⟩; simp)

/-! ### The EntrySequenceDetector -/

/-- What a pair can do: clear the sequence, be ignored, or be appended and compared with the target
(46_entry_sequence.md R220). -/
theorem EntryDetector.write_cases (k : Params) (es : EntryDetector) (p : EntryPair) :
    (relevantIndex p.index = false ∧ es.write k p = ([], [])) ∨
    (relevantIndex p.index = true ∧ es.buf.getLast?.map EntryPair.index = some p.index ∧
      es.write k p = (es.buf, [])) ∨
    (relevantIndex p.index = true ∧ es.buf.getLast?.map EntryPair.index ≠ some p.index ∧
      es.write k p = entryMatch k es.decoderId (es.buf ++ [p])) := by
  unfold EntryDetector.write
  cases relevantIndex p.index
  · exact .inl ⟨rfl, rfl⟩
  · by_cases h : es.buf.getLast?.map EntryPair.index = some p.index
    · exact .inr (.inl ⟨rfl, h, by simp [h]⟩)
    · exact .inr (.inr ⟨rfl, h, by simp [h]⟩)

/-- A comparison ends in an empty sequence without a call, in an empty sequence with the hook's call when
the target is complete, or in the sequence kept as a part of its target (46_entry_sequence.md R223 to
R225). -/
theorem entryMatch_cases (k : Params) (id : U32) (buf : List EntryPair) :
    entryMatch k id buf = ([], []) ∨
    (∃ target hook, (buf.head?.bind fun p => entryTarget k id p.value) = some (target, hook) ∧
      buf = target ∧ entryMatch k id buf = ([], hook)) ∨
    (∃ target hook, (buf.head?.bind fun p => entryTarget k id p.value) = some (target, hook) ∧
      buf = target.take buf.length ∧ buf.length ≠ target.length ∧ entryMatch k id buf = (buf, [])) := by
  unfold entryMatch
  cases h : buf.head?.bind fun p => entryTarget k id p.value with
  | none => exact .inl rfl
  | some th =>
    obtain ⟨target, hook⟩ := th
    by_cases h1 : buf = target.take buf.length
    · by_cases h2 : buf.length = target.length
      · refine .inr (.inl ⟨target, hook, rfl, ?_, ?_⟩)
        · rw [h1, h2, List.take_length]
        · simp only []
          rw [if_neg (not_not.mpr h1), if_pos h2]
      · refine .inr (.inr ⟨target, hook, rfl, h1, h2, ?_⟩)
        simp only []
        rw [if_neg (not_not.mpr h1), if_neg h2]
    · left
      simp only []
      rw [if_pos h1]

end Sys2Proof.Machine
end

