-- ==== Sys2Proof/Laws/PerInstr.lean ====
section
/-!
SUPPORT. A statement about every instruction as syntax, one lemma per constructor: how many bytes a
well-formed instruction's encoding has in its layer (30_encoding.md R60, R63, R73, R74).
-/

namespace Sys2Proof.Laws.EncodedLength

/-- How many bytes an instruction of a layer may have: a packet `PKT_MIN` to `PKT_CAP`, an edge one u32, a
position or rate code one byte, an operation at least its number. -/
def lengthOk (k : Params) (n : Nat) : Layer → Prop
  | .packet => k.pktMin ≤ n ∧ n ≤ k.pktCap
  | .edge => n = 4
  | .position => n = 1
  | .rate => n = 1
  | .operation => 1 ≤ n

/-- A well-formed instruction's encoding has a length of its layer. -/
def Statement (i : Instr) : Prop :=
  ∀ (k : Params) (r : Rate), i.wellFormed k r = true → lengthOk k (encode k.codes i).length i.layer

/-- A u32 takes four bytes. -/
theorem be32Bytes_length (w : U32) : (Machine.be32Bytes w).length = 4 := rfl

/-- The check on a packet's length, as inequalities. -/
theorem packetLengthOk_iff (k : Params) (n : Nat) :
    packetLengthOk k n = true ↔ k.pktMin ≤ n + 4 ∧ n + 4 ≤ k.pktCap := by
  simp [packetLengthOk]

theorem ping (sn did : Option U32) (tail : List Byte) : Statement (.ping sn did tail) := by
  intro k r h
  simp only [Instr.wellFormed, Bool.and_eq_true, packetLengthOk_iff] at h
  have h := h.2
  cases sn <;> cases did <;>
    simp [optionSize, encode, optionBytes, be32Bytes_length, lengthOk, Instr.layer] at h ⊢ <;> omega

theorem configTransferRate (x : Option Byte) (tail : List Byte) : Statement (.configTransferRate x tail) := by
  intro k r h
  simp only [Instr.wellFormed, Bool.and_eq_true, packetLengthOk_iff] at h
  have h := h.2
  cases x <;> simp [optionSize, encode, be32Bytes_length, lengthOk, Instr.layer] at h ⊢ <;> omega

theorem binarySearch (x : Option Byte) (tail : List Byte) : Statement (.binarySearch x tail) := by
  intro k r h
  simp only [Instr.wellFormed, Bool.and_eq_true, packetLengthOk_iff] at h
  have h := h.2
  cases x <;> simp [optionSize, encode, be32Bytes_length, lengthOk, Instr.layer] at h ⊢ <;> omega

theorem cvRead (x : Option (U16 × Byte)) (tail : List Byte) : Statement (.cvRead x tail) := by
  intro k r h
  simp only [Instr.wellFormed, Bool.and_eq_true, packetLengthOk_iff] at h
  have h := h.2
  cases x <;>
    simp [optionSize, encode, optionBytes, cvBytes, Machine.be16Bytes, be32Bytes_length, lengthOk,
      Instr.layer] at h ⊢ <;> omega

theorem cvWrite (x : Option (U16 × Byte)) (tail : List Byte) : Statement (.cvWrite x tail) := by
  intro k r h
  simp only [Instr.wellFormed, Bool.and_eq_true, packetLengthOk_iff] at h
  have h := h.2
  cases x <;>
    simp [optionSize, encode, optionBytes, cvBytes, Machine.be16Bytes, be32Bytes_length, lengthOk,
      Instr.layer] at h ⊢ <;> omega

theorem busy (body : List Byte) : Statement (.busy body) := by
  intro k r h
  simp only [Instr.wellFormed, packetLengthOk_iff] at h
  simp only [encode, List.length_append, be32Bytes_length, Instr.layer, lengthOk]
  omega

theorem zsuSalsa20Iv (body : List Byte) : Statement (.zsuSalsa20Iv body) := by
  intro k r h
  simp only [Instr.wellFormed, packetLengthOk_iff] at h
  simp only [encode, List.length_append, be32Bytes_length, Instr.layer, lengthOk]
  omega

theorem zsuErase (body : List Byte) : Statement (.zsuErase body) := by
  intro k r h
  simp only [Instr.wellFormed, packetLengthOk_iff] at h
  simp only [encode, List.length_append, be32Bytes_length, Instr.layer, lengthOk]
  omega

theorem zsuUpdate (body : List Byte) : Statement (.zsuUpdate body) := by
  intro k r h
  simp only [Instr.wellFormed, packetLengthOk_iff] at h
  simp only [encode, List.length_append, be32Bytes_length, Instr.layer, lengthOk]
  omega

theorem zsuCrc32Start (body : List Byte) : Statement (.zsuCrc32Start body) := by
  intro k r h
  simp only [Instr.wellFormed, packetLengthOk_iff] at h
  simp only [encode, List.length_append, be32Bytes_length, Instr.layer, lengthOk]
  omega

theorem zsuCrc32Result (body : List Byte) : Statement (.zsuCrc32Result body) := by
  intro k r h
  simp only [Instr.wellFormed, packetLengthOk_iff] at h
  simp only [encode, List.length_append, be32Bytes_length, Instr.layer, lengthOk]
  omega

theorem zsuCrc32ResultExit (body : List Byte) : Statement (.zsuCrc32ResultExit body) := by
  intro k r h
  simp only [Instr.wellFormed, packetLengthOk_iff] at h
  simp only [encode, List.length_append, be32Bytes_length, Instr.layer, lengthOk]
  omega

theorem zppValidQuery (body : List Byte) : Statement (.zppValidQuery body) := by
  intro k r h
  simp only [Instr.wellFormed, packetLengthOk_iff] at h
  simp only [encode, List.length_append, be32Bytes_length, Instr.layer, lengthOk]
  omega

theorem zppLcDcQuery (body : List Byte) : Statement (.zppLcDcQuery body) := by
  intro k r h
  simp only [Instr.wellFormed, packetLengthOk_iff] at h
  simp only [encode, List.length_append, be32Bytes_length, Instr.layer, lengthOk]
  omega

theorem zppErase (body : List Byte) : Statement (.zppErase body) := by
  intro k r h
  simp only [Instr.wellFormed, packetLengthOk_iff] at h
  simp only [encode, List.length_append, be32Bytes_length, Instr.layer, lengthOk]
  omega

theorem zppUpdate (body : List Byte) : Statement (.zppUpdate body) := by
  intro k r h
  simp only [Instr.wellFormed, packetLengthOk_iff] at h
  simp only [encode, List.length_append, be32Bytes_length, Instr.layer, lengthOk]
  omega

theorem zppUpdateEnd (body : List Byte) : Statement (.zppUpdateEnd body) := by
  intro k r h
  simp only [Instr.wellFormed, packetLengthOk_iff] at h
  simp only [encode, List.length_append, be32Bytes_length, Instr.layer, lengthOk]
  omega

theorem zppExit (body : List Byte) : Statement (.zppExit body) := by
  intro k r h
  simp only [Instr.wellFormed, packetLengthOk_iff] at h
  simp only [encode, List.length_append, be32Bytes_length, Instr.layer, lengthOk]
  omega

theorem zppExitReset (body : List Byte) : Statement (.zppExitReset body) := by
  intro k r h
  simp only [Instr.wellFormed, packetLengthOk_iff] at h
  simp only [encode, List.length_append, be32Bytes_length, Instr.layer, lengthOk]
  omega

theorem unlisted (cmd : U32) (body : List Byte) : Statement (.unlisted cmd body) := by
  intro k r h
  simp only [Instr.wellFormed, Bool.and_eq_true, packetLengthOk_iff] at h
  simp only [encode, List.length_append, be32Bytes_length, Instr.layer, lengthOk]
  omega

theorem symZero (t : U32) : Statement (.symZero t) := by
  intro _ _ _
  rfl

theorem symOne (t : U32) : Statement (.symOne t) := by
  intro _ _ _
  rfl

theorem symAckreq (t : U32) : Statement (.symAckreq t) := by
  intro _ _ _
  rfl

theorem symInvalid (t : U32) : Statement (.symInvalid t) := by
  intro _ _ _
  rfl

theorem posReadBit (i : BitVec 6) : Statement (.posReadBit i) := by
  intro _ _ _
  rfl

theorem posReadComplement (i : BitVec 6) : Statement (.posReadComplement i) := by
  intro _ _ _
  rfl

theorem posPruneSet (i : BitVec 6) : Statement (.posPruneSet i) := by
  intro _ _ _
  rfl

theorem posPruneClear (i : BitVec 6) : Statement (.posPruneClear i) := by
  intro _ _ _
  rfl

theorem posNewRound : Statement .posNewRound := by
  intro _ _ _
  rfl

theorem posNoop (op : BitVec 2) : Statement (.posNoop op) := by
  intro _ _ _
  rfl

theorem rateFallback : Statement .rateFallback := by
  intro _ _ _
  rfl

theorem rateFast : Statement .rateFast := by
  intro _ _ _
  rfl

theorem rateMedium : Statement .rateMedium := by
  intro _ _ _
  rfl

theorem rateSlow : Statement .rateSlow := by
  intro _ _ _
  rfl

theorem rateDefault : Statement .rateDefault := by
  intro _ _ _
  rfl

theorem reset (sc : ResetScope) (a : ResetArgs) : Statement (.reset sc a) := by
  intro _ _ _
  exact Nat.succ_le_succ (Nat.zero_le _)

theorem classify (t : U32) (r : Rate) : Statement (.classify t r) := by
  intro _ _ _
  exact Nat.succ_le_succ (Nat.zero_le _)

theorem ackDuration (t : U32) (r : Rate) : Statement (.ackDuration t r) := by
  intro _ _ _
  exact Nat.succ_le_succ (Nat.zero_le _)

theorem crc8Next (c b : Byte) : Statement (.crc8Next c b) := by
  intro _ _ _
  exact Nat.succ_le_succ (Nat.zero_le _)

theorem crc32Next (c : U32) (b : Byte) : Statement (.crc32Next c b) := by
  intro _ _ _
  exact Nat.succ_le_succ (Nat.zero_le _)

theorem crc32Value (c : U32) : Statement (.crc32Value c) := by
  intro _ _ _
  exact Nat.succ_le_succ (Nat.zero_le _)

theorem rxReceive (t : U32) : Statement (.rxReceive t) := by
  intro _ _ _
  exact Nat.succ_le_succ (Nat.zero_le _)

theorem rxExecute : Statement .rxExecute := by
  intro _ _ _
  exact Nat.succ_le_succ (Nat.zero_le _)

theorem rxActive : Statement .rxActive := by
  intro _ _ _
  exact Nat.succ_le_succ (Nat.zero_le _)

theorem arbRespond (pos : Byte) : Statement (.arbRespond pos) := by
  intro _ _ _
  exact Nat.succ_le_succ (Nat.zero_le _)

theorem entryWrite (idx : U32) (val : Byte) : Statement (.entryWrite idx val) := by
  intro _ _ _
  exact Nat.succ_le_succ (Nat.zero_le _)

theorem txInit (c : TxConfig) : Statement (.txInit c) := by
  intro _ _ _
  exact Nat.succ_le_succ (Nat.zero_le _)

theorem txSetTransferRate (r : Byte) : Statement (.txSetTransferRate r) := by
  intro _ _ _
  exact Nat.succ_le_succ (Nat.zero_le _)

theorem txPacket (p : List Byte) : Statement (.txPacket p) := by
  intro _ _ _
  exact Nat.succ_le_succ (Nat.zero_le _)

theorem txTransmit : Statement .txTransmit := by
  intro _ _ _
  exact Nat.succ_le_succ (Nat.zero_le _)

end Sys2Proof.Laws.EncodedLength
end

