-- ==== Sys2Proof/Laws/Sequences.lean ====
section
/-!
SUPPORT. What the builders of the expected sequences give: every sequence of the shape of
46_entry_sequence.md R226, whatever the open parts are.
-/

namespace Sys2Proof.Machine

/-! ### Indices -/

/-- Every index is one of 7, 104 and 105. -/
@[simp] theorem relevantIndex_cv (a : EntryIndex) : relevantIndex a.cv = true := by cases a <;> rfl

/-- Indices are told apart by their numbers. -/
@[simp] theorem cv_eq_cv (a b : EntryIndex) : a.cv = b.cv ↔ a = b := by
  cases a <;> cases b <;> decide

/-- The next index differs. -/
@[simp] theorem ne_other (a : EntryIndex) (up : Bool) : a ≠ a.other up := by
  cases a <;> cases up <;> decide

/-- The index between two differs from the one before. -/
@[simp] theorem ne_between (a b : EntryIndex) (up : Bool) : a ≠ a.between b up := by
  cases a <;> cases b <;> cases up <;> decide

/-- The index between two differs from the one after. -/
@[simp] theorem between_ne (a b : EntryIndex) (up : Bool) : a.between b up ≠ b := by
  cases a <;> cases b <;> cases up <;> decide

/-! ### Sequences -/

/-- The sequence is its header and then its tail, as lists of pairs. -/
theorem zppSequence_toList (f : SequenceFrame) (h : SequenceHeader) :
    (zppSequence f h).toList = (sequenceHeader 0xFE f h).toList ++ (zppTail f).toList := rfl

/-- The sequence is its header and then its tail, as lists of pairs. -/
theorem fwSequence_toList (f : SequenceFrame) (h : SequenceHeader) :
    (fwSequence f h).toList = (sequenceHeader 0xFF f h).toList ++ (fwTail f).toList := rfl

/-- `zppSequence` gives a sequence of the shape of R226. -/
theorem zppSequence_inShape (f : SequenceFrame) (h : SequenceHeader) :
    sequenceInShape 0xFE (zppSequence f h).toList = true := by
  simp [sequenceInShape, sequenceWellFormed, zeroTail, zppSequence_toList, sequenceHeader, zppTail]

/-- `fwSequence` gives a sequence of the shape of R226. -/
theorem fwSequence_inShape (f : SequenceFrame) (h : SequenceHeader) :
    sequenceInShape 0xFF (fwSequence f h).toList = true := by
  simp [sequenceInShape, sequenceWellFormed, zeroTail, fwSequence_toList, sequenceHeader, fwTail]

/-- Two firmware sequences of one frame differ in the pairs 1 to 4 at most. -/
theorem fwSequence_agree (f : SequenceFrame) (g h : SequenceHeader) :
    agreeOutsideHeader (fwSequence f g).toList (fwSequence f h).toList = true := by
  simp [agreeOutsideHeader, fwSequence_toList, sequenceHeader, fwTail]

end Sys2Proof.Machine
end

