-- ==== Sys2Proof/Tests/Slice0.lean ====
section
/-!
SUPPORT. Tests: expected values are the spec's own (95_test_vectors.md, under its example table EX, its
candidate codes and sequences and its decoder DEC) or worked by hand from a rule. Then, for every statement
with hypotheses, a concrete state and operands that meet them.
-/

namespace Sys2Proof.Tests

open Sys2Proof Sys2Proof.Machine

/-! ### Fixtures -/

/-- The example table EX (40_timing_classifier.md, before R100). -/
def exTiming : Timing where
  fallback := ⟨1200, 2400, 3600, 100, 1080, 1320, 2160, 2640, 3240, 3960⟩
  fast := ⟨10, 20, 40, 10, 7, 12, 15, 25, 30, 50⟩
  medium := ⟨20, 40, 60, 20, 15, 25, 30, 50, 45, 75⟩
  slow := ⟨40, 80, 120, 40, 30, 50, 60, 100, 90, 150⟩
  default := ⟨75, 150, 225, 75, 67, 82, 135, 165, 202, 247⟩

/-- The candidate `SEQ_ZPP` (46_entry_sequence.md R226). -/
def exZpp : Vector EntryPair 7 :=
  #v[⟨7, 0xFE⟩, ⟨104, 0xAA⟩, ⟨105, 0x55⟩, ⟨104, 0x55⟩, ⟨105, 0xAA⟩, ⟨104, 0⟩, ⟨105, 0⟩]

/-- The candidate `SEQ_FW(id)` for the id of DEC (46_entry_sequence.md R226). -/
def exFw : Vector EntryPair 9 :=
  #v[⟨7, 0xFF⟩, ⟨104, 0x06⟩, ⟨105, 0x04⟩, ⟨104, 0x32⟩, ⟨105, 0x00⟩, ⟨104, 0⟩, ⟨105, 0⟩, ⟨104, 0⟩, ⟨105, 0⟩]

/-- The parameters of the vectors. -/
def exParams : Params where
  codes := Codes.table
  timing := exTiming
  seqZpp := exZpp
  seqFw := [(0x06043200, exFw)]
  host := ⟨true, true, true, true, true, true, true, true⟩

/-- DEC at rate 4, with four preamble ones and ten ackreqs. -/
def decArgs : ResetArgs := ⟨0x11223344, 0x06043200, .default, .default, 4, 10, false⟩

/-- DEC after reset. -/
def dec : State where
  params := exParams
  rx := .construct decArgs
  tx := .construct decArgs
  es := .construct decArgs
  result := .none
  trace := []
  halted := false
  requests := []
  cvAnswers := []
  extAnswers := []
  cvDraws := 0
  extDraws := 0

/-- DEC, selected. -/
def live : State := { dec with rx := { dec.rx with selected := true } }

/-- A view of the next state of an instruction. -/
def view {α : Type} (f : State → α) (i : Instr) (s : State) : Option α :=
  match exec i s with
  | .next t => some (f t)
  | _ => none

/-- A view of the state after `rx_execute` with the packet alone in the queue. -/
def viewPacket {α : Type} (f : State → α) (p : List Byte) (s : State) : Option α :=
  view f .rxExecute { s with rx := { s.rx with queue := [p] } }

/-- The state with the packet received and its stop bit due. -/
def received (p : List Byte) (s : State) : State :=
  { s with rx := { s.rx with state := .endBit, buf := p, crc8 := crc8Of p, crc32 := crc32Of p } }

/-- The identifier 0x0000000100000005 of V40. -/
def five : State := { live with rx := { live.rx with serialNumber := 5, decoderId := 1 } }

/-! ### WellFormed refuses an ill-formed term for each of its checks -/

theorem test_wf_ping_id_without_serial :
    (Instr.ping none (some 1) [0]).wellFormed exParams .default = false := by decide

theorem test_wf_ping_serial_with_room_for_id :
    (Instr.ping (some 1) none [0, 0, 0, 0, 0]).wellFormed exParams .default = false := by decide

theorem test_wf_ping_no_serial_with_room_for_one :
    (Instr.ping none none [0, 0, 0, 0, 0]).wellFormed exParams .default = false := by decide

theorem test_wf_ping_without_trailer :
    (Instr.ping (some 1) (some 1) []).wellFormed exParams .default = false := by decide

theorem test_wf_rate_byte_left_in_tail :
    (Instr.configTransferRate none [4, 0xD4]).wellFormed exParams .default = false := by decide

theorem test_wf_rate_byte_without_trailer :
    (Instr.configTransferRate (some 4) []).wellFormed exParams .default = false := by decide

theorem test_wf_position_byte_left_in_tail :
    (Instr.binarySearch none [0, 0x8E]).wellFormed exParams .default = false := by decide

theorem test_wf_cv_fields_left_in_tail :
    (Instr.cvRead none [0, 8, 3, 0x75]).wellFormed exParams .default = false ∧
    (Instr.cvWrite none [0, 8, 0xFF, 0x38]).wellFormed exParams .default = false := by decide

theorem test_wf_packet_too_short : (Instr.busy []).wellFormed exParams .default = false := by decide

theorem test_wf_packet_too_long :
    (Instr.zsuErase (List.replicate 265 0)).wellFormed exParams .default = false := by decide +kernel

theorem test_wf_listed_code_is_not_unlisted :
    (Instr.unlisted 0xFFFFFFFF [0x8D]).wellFormed exParams .default = false := by decide

theorem test_wf_time_in_another_window :
    (Instr.symZero 75).wellFormed exParams .default = false ∧
    (Instr.symOne 150).wellFormed exParams .default = false ∧
    (Instr.symAckreq 100).wellFormed exParams .default = false ∧
    (Instr.symInvalid 225).wellFormed exParams .default = false := by decide

theorem test_wf_bit_index_63 :
    (Instr.posReadBit 63).wellFormed exParams .default = false ∧
    (Instr.posReadComplement 63).wellFormed exParams .default = false ∧
    (Instr.posPruneSet 63).wellFormed exParams .default = false ∧
    (Instr.posPruneClear 63).wellFormed exParams .default = false := by decide

theorem test_wf_noop_operand_3 : (Instr.posNoop 3).wellFormed exParams .default = false := by decide

/-! ### Every constructor decoded from a word written out from the spec (V20, 30_encoding.md R73, R74) -/

theorem test_decode_ping :
    decodePacket Codes.table [0xFF, 0xFF, 0xFF, 0xFF, 0x11, 0x22, 0x33, 0x44, 0x77]
      = .ok (.ping (some 0x11223344) none [0x77]) := by decide

theorem test_decode_ping_stray_bytes :
    decodePacket Codes.table [0xFF, 0xFF, 0xFF, 0xFF, 0x11, 0x22, 0x11]
      = .ok (.ping none none [0x11, 0x22, 0x11]) := by decide

theorem test_decode_config_transfer_rate :
    decodePacket Codes.table [0xFF, 0xFF, 0xFF, 0xFE, 0x01, 0xEB]
      = .ok (.configTransferRate (some 1) [0xEB]) ∧
    decodePacket Codes.table [0xFF, 0xFF, 0xFF, 0xFE, 0xD3] = .ok (.configTransferRate none [0xD3]) := by
  decide

theorem test_decode_binary_search :
    decodePacket Codes.table [0xFF, 0xFF, 0xFF, 0xFA, 0xC1, 0x1A]
      = .ok (.binarySearch (some 0xC1) [0x1A]) := by decide

theorem test_decode_cv_read :
    decodePacket Codes.table [0xFF, 0xFF, 0xFF, 0xF6, 0x00, 0x08, 0x03, 0x75]
      = .ok (.cvRead (some (8, 3)) [0x75]) ∧
    decodePacket Codes.table [0xFF, 0xFF, 0xFF, 0xF6, 0x04, 0xA2] = .ok (.cvRead none [0x04, 0xA2]) := by
  decide

theorem test_decode_cv_write :
    decodePacket Codes.table [0xFF, 0xFF, 0xFF, 0xF9, 0x01, 0x08, 0xFF, 0x38]
      = .ok (.cvWrite (some (0x108, 0xFF)) [0x38]) := by decide

theorem test_decode_busy :
    decodePacket Codes.table [0xFF, 0xFF, 0xFF, 0xF2, 0x70] = .ok (.busy [0x70]) := by decide

theorem test_decode_zsu :
    decodePacket Codes.table [0xFF, 0xFF, 0xFF, 0xF7, 0x08, 0x30] = .ok (.zsuSalsa20Iv [0x08, 0x30]) ∧
    decodePacket Codes.table [0xFF, 0xFF, 0xFF, 0xF5, 0x01] = .ok (.zsuErase [0x01]) ∧
    decodePacket Codes.table [0xFF, 0xFF, 0xFF, 0xF8, 0x02] = .ok (.zsuUpdate [0x02]) ∧
    decodePacket Codes.table [0xFF, 0xFF, 0xFF, 0xFB, 0x03] = .ok (.zsuCrc32Start [0x03]) ∧
    decodePacket Codes.table [0xFF, 0xFF, 0xFF, 0xFC, 0x04] = .ok (.zsuCrc32Result [0x04]) ∧
    decodePacket Codes.table [0xFF, 0xFF, 0xFF, 0xFD, 0x05] = .ok (.zsuCrc32ResultExit [0x05]) := by decide

theorem test_decode_zpp :
    decodePacket Codes.table [0xFF, 0xFF, 0xFF, 0x06, 0x01] = .ok (.zppValidQuery [0x01]) ∧
    decodePacket Codes.table [0xFF, 0xFF, 0xFF, 0x07, 0x02] = .ok (.zppLcDcQuery [0x02]) ∧
    decodePacket Codes.table [0xFF, 0xFF, 0xFF, 0x05, 0x03] = .ok (.zppErase [0x03]) ∧
    decodePacket Codes.table [0xFF, 0xFF, 0xFF, 0x08, 0x04] = .ok (.zppUpdate [0x04]) ∧
    decodePacket Codes.table [0xFF, 0xFF, 0xFF, 0x0B, 0x05] = .ok (.zppUpdateEnd [0x05]) ∧
    decodePacket Codes.table [0xFF, 0xFF, 0xFF, 0x0C, 0x1B] = .ok (.zppExit [0x1B]) ∧
    decodePacket Codes.table [0xFF, 0xFF, 0xFF, 0x0D, 0x07] = .ok (.zppExitReset [0x07]) := by decide

theorem test_decode_unlisted :
    decodePacket Codes.table [0x12, 0x34, 0x56, 0x78, 0x01, 0x8D]
      = .ok (.unlisted 0x12345678 [0x01, 0x8D]) := by decide

theorem test_decode_packet_too_short :
    decodePacket Codes.table [0xFF, 0xFF, 0xFF] = .error .packetTooShort := by decide

/-- 150, 75, 225 and 100 microseconds at rate 4 (V14; 95_test_vectors.md, the list of examples). -/
theorem test_decode_edges :
    decodeEdge exTiming .default [0x00, 0x00, 0x00, 0x96] = .ok (.symZero 150) ∧
    decodeEdge exTiming .default [0x00, 0x00, 0x00, 0x4B] = .ok (.symOne 75) ∧
    decodeEdge exTiming .default [0x00, 0x00, 0x00, 0xE1] = .ok (.symAckreq 225) ∧
    decodeEdge exTiming .default [0x00, 0x00, 0x00, 0x64] = .ok (.symInvalid 100) := by decide

theorem test_decode_positions :
    decodePosition [0x3E] = .ok (.posReadBit 62) ∧ decodePosition [0x41] = .ok (.posReadComplement 1) ∧
    decodePosition [0x82] = .ok (.posPruneSet 2) ∧ decodePosition [0xFE] = .ok (.posPruneClear 62) ∧
    decodePosition [0xFF] = .ok .posNewRound ∧ decodePosition [0x3F] = .ok (.posNoop 0) ∧
    decodePosition [0x7F] = .ok (.posNoop 1) ∧ decodePosition [0xBF] = .ok (.posNoop 2) := by decide

theorem test_decode_rates :
    decodeRate [0] = .ok .rateFallback ∧ decodeRate [1] = .ok .rateFast ∧ decodeRate [2] = .ok .rateMedium ∧
    decodeRate [3] = .ok .rateSlow ∧ decodeRate [4] = .ok .rateDefault ∧
    decodeRate [5] = .error (.notARate 5) := by decide

/-- The model's own numbering of the operations (log 1). -/
theorem test_decode_operations :
    decodeOperation [0, 0, 0x11, 0x22, 0x33, 0x44, 0x06, 0x04, 0x32, 0x00, 4, 3, 14, 12, 1]
      = .ok (.reset .all ⟨0x11223344, 0x06043200, .default, .slow, 14, 12, true⟩) ∧
    decodeOperation [1, 0, 0, 0, 47, 2] = .ok (.classify 47 .medium) ∧
    decodeOperation [2, 0, 0, 0x0E, 0x10, 4] = .ok (.ackDuration 3600 .default) ∧
    decodeOperation [3, 0x1A, 0x64] = .ok (.crc8Next 0x1A 0x64) ∧
    decodeOperation [4, 0x80, 0, 0, 0, 1] = .ok (.crc32Next 0x80000000 1) ∧
    decodeOperation [5, 0x55, 0x2A, 0x89, 0xC7] = .ok (.crc32Value 0x552A89C7) ∧
    decodeOperation [6, 0, 0, 0, 75] = .ok (.rxReceive 75) ∧
    decodeOperation [7] = .ok .rxExecute ∧ decodeOperation [8] = .ok .rxActive := by decide

theorem test_decode_operations_of_other_components :
    decodeOperation [9, 0xC1] = .ok (.arbRespond 0xC1) ∧
    decodeOperation [10, 0, 0, 0, 104, 0xAA] = .ok (.entryWrite 104 0xAA) ∧
    decodeOperation [11, 9, 14, 12, 0] = .ok (.txInit ⟨9, 14, 12, false⟩) ∧
    decodeOperation [12, 200] = .ok (.txSetTransferRate 200) ∧
    decodeOperation [13, 0xA5, 0x5A] = .ok (.txPacket [0xA5, 0x5A]) ∧
    decodeOperation [14] = .ok .txTransmit := by decide

theorem test_decode_operation_refusals :
    decodeOperation [] = .error .emptyRequest ∧ decodeOperation [15] = .error (.unknownOperation 15) ∧
    decodeOperation [9] = .error .operandCount ∧ decodeOperation [1, 0, 0, 0, 0, 5] = .error (.notARate 5) ∧
    decodeOperation [11, 0, 0, 0, 2] = .error (.notABoolean 2) ∧
    decodeOperation [0, 4, 0, 0, 0, 0, 0, 0, 0, 0, 0, 0, 0, 0, 0] = .error (.notAScope 4) := by decide

/-- Table words: a packet's command, a rate code and a position code. -/
theorem test_table_words :
    decodeTableWord 32 0xFFFFFFF9 = some (.cvWrite (some (0, 0)) [0, 0, 0, 0, 0, 0]) ∧
    decodeTableWord 8 4 = some .rateDefault ∧ decodeTableWord 8 0x40 = some (.posReadComplement 0) := by
  decide

/-- The step after `withFetchWord` runs the rate code. -/
theorem test_table_word_runs :
    step ({ dec with rx := { dec.rx with transferRate := .fast } }.withFetchWord 8 4)
      = .next { dec with rx := { live.rx with transferRate := .default } } := rfl

/-! ### Symbols (V21 to V25) -/

theorem test_one_saturates :
    view (·.rx.bitCount) (.symOne 75) { dec with rx := { dec.rx with bitCount := 255 } } = some 255 := by decide

theorem test_one_in_data :
    view (fun t => (t.rx.state, t.rx.bitCount, t.rx.acc)) (.symOne 75)
      { live with rx := { live.rx with state := .data, bitCount := 2, acc := 0b10 } }
      = some (.data, 3, 0b101) := by decide

/-- V21: `1 0` restarts, `1 1 0` starts the data. -/
theorem test_zero_after_one_or_two_ones :
    view (fun t => (t.rx.state, t.rx.active)) (.symZero 150) { dec with rx := { dec.rx with bitCount := 1 } }
      = some (.preamble, false) ∧
    view (fun t => (t.rx.state, t.rx.active)) (.symZero 150) { dec with rx := { dec.rx with bitCount := 2 } }
      = some (.data, true) := by decide

/-- V25: the 269th byte. -/
theorem test_zero_completes_a_byte_too_many :
    view (fun t => (t.rx.state, t.rx.bitCount, t.rx.buf, t.rx.nack)) (.symZero 150)
      { live with rx := { live.rx with
        state := .data, bitCount := 7, buf := List.replicate 268 0x55, nack := true } }
      = some (.preamble, 0, [], false) := by decide +kernel

/-- V22: the override in mid-byte. -/
theorem test_ackreq_in_data :
    view (fun t => (t.rx.state, t.rx.bitCount, t.rx.acc, t.rx.buf, t.trace)) (.symAckreq 225)
      { live with rx := { live.rx with state := .data, bitCount := 3, acc := 0b101, buf := [0xFF] } }
      = some (.ackReq, 1, 0b101, [0xFF], []) := by decide

/-- P1: position 6 of the window, channel 2. -/
theorem test_ackreq_position_6 :
    view (fun t => (t.rx.bitCount, t.trace)) (.symAckreq 225)
      { live with rx := { live.rx with state := .ackReq, bitCount := 5, nack := true, ack := true } }
      = some (6, [.ackbit 75]) := by decide

theorem test_invalid_in_window :
    view (fun t => (t.rx.state, t.rx.bitCount, t.rx.nack, t.rx.selected)) (.symInvalid 100)
      { live with rx := { live.rx with state := .ackReq, bitCount := 3, nack := true } }
      = some (.preamble, 0, false, true) := by decide

/-- V23: CvWrite right and wrong; ZsuUpdate wrong; too short. -/
theorem test_stop_bit :
    view (fun t => (t.rx.state, t.rx.queue, t.rx.nack, t.rx.ack)) (.rxReceive 75)
      (received [0xFF, 0xFF, 0xFF, 0xF9, 0x00, 0x08, 0xFF, 0x38] live)
      = some (.ackReq, [[0xFF, 0xFF, 0xFF, 0xF9, 0x00, 0x08, 0xFF, 0x38]], false, false) ∧
    view (fun t => (t.rx.queue, t.rx.nack, t.rx.ack)) (.rxReceive 75)
      (received [0xFF, 0xFF, 0xFF, 0xF9, 0x00, 0x08, 0xFF, 0x39] live) = some ([], true, false) ∧
    view (fun t => (t.rx.queue, t.rx.nack, t.rx.ack)) (.rxReceive 75)
      (received [0xFF, 0xFF, 0xFF, 0xF7, 1, 12, 3, 4, 5, 6, 7, 8, 0x30] live) = some ([], true, true) ∧
    view (fun t => (t.rx.queue, t.rx.nack, t.rx.ack)) (.rxReceive 75)
      (received [0xFF, 0xFF, 0xFF, 0xFF] live) = some ([], true, false) := by decide +kernel

/-- V23, "Crc32" class: ZsuUpdate right, and with its trailer reversed. -/
theorem test_stop_bit_crc32 :
    view (fun t => (t.rx.queue.length, t.rx.nack, t.rx.ack)) (.rxReceive 75)
      (received [0xFF, 0xFF, 0xFF, 0xF8, 0, 0, 0, 0, 0, 1, 2, 3, 4, 5, 6, 7, 0xAA, 0x3A, 0x88, 0xF9] live)
      = some (1, false, false) ∧
    view (fun t => (t.rx.queue.length, t.rx.nack, t.rx.ack)) (.rxReceive 75)
      (received [0xFF, 0xFF, 0xFF, 0xF8, 0, 0, 0, 0, 0, 1, 2, 3, 4, 5, 6, 7, 0xF9, 0x88, 0x3A, 0xAA] live)
      = some (0, true, true) := by decide +kernel

/-- V24: Busy while a packet waits, right and wrong. -/
theorem test_stop_bit_busy :
    view (fun t => (t.rx.queue, t.rx.nack, t.rx.ack)) (.rxReceive 75)
      (received [0xFF, 0xFF, 0xFF, 0xF2, 0x70] { live with rx := { live.rx with queue := [[1, 2, 3, 4, 5]] } })
      = some ([[1, 2, 3, 4, 5]], true, true) ∧
    view (fun t => (t.rx.queue, t.rx.nack, t.rx.ack)) (.rxReceive 75)
      (received [0xFF, 0xFF, 0xFF, 0xF2, 0xF0] { live with rx := { live.rx with queue := [[1, 2, 3, 4, 5]] } })
      = some ([[1, 2, 3, 4, 5]], true, false) := by decide +kernel

theorem test_active :
    view (·.result) .rxActive { dec with rx := { dec.rx with active := true } } = some (.bool true) := by decide

/-! ### Commands (V26, V31 to V35) -/

/-- V31, five of its rows, from an unselected decoder and from a selected one. -/
theorem test_ping_selects :
    viewPacket (·.rx.selected) [0xFF, 0xFF, 0xFF, 0xFF, 0x8D] dec = some true ∧
    viewPacket (·.rx.selected) [0xFF, 0xFF, 0xFF, 0xFF, 0x11, 0x22, 0x33, 0x44, 6, 4, 0x32, 0, 5] dec = some true ∧
    viewPacket (·.rx.selected) [0xFF, 0xFF, 0xFF, 0xFF, 0, 0, 0, 0, 6, 4, 0x32, 0, 0xC5] dec = some true := by
  decide

theorem test_ping_deselects :
    viewPacket (·.rx.selected) [0xFF, 0xFF, 0xFF, 0xFF, 0x11, 0x22, 0x33, 0x45, 0x29] live = some false ∧
    viewPacket (·.rx.selected) [0xFF, 0xFF, 0xFF, 0xFF, 0x11, 0x22, 0x33, 0x44, 6, 4, 0x32, 1, 0x5B] live
      = some false := by decide

/-- V32: (4, 1) rejected, (3, 4) adopted. -/
theorem test_config_transfer_rate :
    viewPacket (fun t => (t.rx.ack, t.rx.transferRate)) [0xFF, 0xFF, 0xFF, 0xFE, 0x01, 0xEB] live
      = some (true, .default) ∧
    viewPacket (fun t => (t.rx.ack, t.rx.transferRate)) [0xFF, 0xFF, 0xFF, 0xFE, 0x04, 0xD4]
      { live with rx := { live.rx with transferRate := .slow } } = some (false, .default) := by decide

/-- V32: 5 rejected, no rate byte. -/
theorem test_config_transfer_rate_no_rate :
    viewPacket (fun t => (t.rx.ack, t.rx.transferRate)) [0xFF, 0xFF, 0xFF, 0xFE, 0x05, 0x8A] live
      = some (true, .default) ∧
    viewPacket (fun t => (t.rx.ack, t.rx.transferRate)) [0xFF, 0xFF, 0xFF, 0xFE, 0xD3]
      { live with rx := { live.rx with ack := true } } = some (false, .default) := by decide

/-- V34: positions 2 and 130. -/
theorem test_binary_search :
    view (fun t => (t.rx.ack, t.rx.arbIgnore)) (.binarySearch (some 2) [0]) live = some (true, false) ∧
    view (fun t => (t.rx.ack, t.rx.arbIgnore)) (.binarySearch (some 130) [0]) live = some (false, true) := by
  decide

/-- V33. -/
theorem test_cv_read :
    viewPacket (fun t => (t.trace, t.rx.ack)) [0xFF, 0xFF, 0xFF, 0xF6, 0x00, 0x08, 0x03, 0x75]
      { live with cvAnswers := [true] } = some ([.readCv 7 3], true) ∧
    viewPacket (fun t => (t.trace, t.rx.ack)) [0xFF, 0xFF, 0xFF, 0xF6, 0x04, 0xA2]
      { live with rx := { live.rx with ack := true } } = some ([], false) := by decide

/-- V33: CV number 0; and an unselected decoder. -/
theorem test_cv_write :
    viewPacket (·.trace) [0xFF, 0xFF, 0xFF, 0xF9, 0x00, 0x00, 0x55, 0x9F] live = some [.writeCv 65535 85] ∧
    viewPacket (fun t => (t.trace, t.rx.ack, t.rx.queue)) [0xFF, 0xFF, 0xFF, 0xF9, 0x00, 0x08, 0xFF, 0x38]
      { dec with rx := { dec.rx with ack := true } } = some ([], true, []) := by decide

/-- V35: ZppExit with the host answering true; a host without a handler. -/
theorem test_delegation :
    viewPacket (fun t => (t.trace, t.rx.ack)) [0xFF, 0xFF, 0xFF, 0x0C, 0x1B]
      { live with extAnswers := [.returns true] }
      = some ([.extExecute 0xFFFFFF0C [0xFF, 0xFF, 0xFF, 0x0C, 0x1B] 0x06043200], true) ∧
    viewPacket (fun t => (t.trace, t.rx.ack)) [0x12, 0x34, 0x56, 0x78, 0x01, 0x8D]
      { live with params := { exParams with host := { exParams.host with extExecute := false } } }
      = some ([], false) := by decide

/-- Each delegated command carries its own code (30_encoding.md R65). -/
theorem test_delegated_codes :
    [Instr.busy [], .zsuSalsa20Iv [], .zsuErase [], .zsuUpdate [], .zsuCrc32Start [], .zsuCrc32Result [],
      .zsuCrc32ResultExit [], .zppValidQuery [], .zppLcDcQuery [], .zppErase [], .zppUpdate [],
      .zppUpdateEnd [], .zppExit [], .zppExitReset [], .unlisted 5 []].map
        (fun i => view (fun t => t.trace.map fun c => match c with | .extExecute w _ _ => w | _ => 0) i
          { live with extAnswers := [.returns true] })
      = [0xFFFFFFF2, 0xFFFFFFF7, 0xFFFFFFF5, 0xFFFFFFF8, 0xFFFFFFFB, 0xFFFFFFFC, 0xFFFFFFFD, 0xFFFFFF06,
        0xFFFFFF07, 0xFFFFFF05, 0xFFFFFF08, 0xFFFFFF0B, 0xFFFFFF0C, 0xFFFFFF0D, 5].map
        fun w : U32 => some [w] := by decide

theorem test_rate_requests :
    [Instr.rateFallback, .rateFast, .rateMedium, .rateSlow, .rateDefault].map
        (fun i => view (fun t => (t.rx.ack, t.rx.transferRate)) i
          { live with rx := { live.rx with transferRate := .medium } })
      = [some (true, .medium), some (true, .medium), some (false, .medium), some (false, .slow),
        some (false, .default)] := by decide

/-! ### Arbitration (V40, V41) -/

theorem test_positions_answer :
    ([0, 1, 32, 62, 64, 65, 96, 126, 191, 255] : List Byte).map (fun p => view (·.result) (.arbRespond p) five)
      = [true, false, true, false, false, true, false, true, false, true].map fun b => some (.bool b) := by
  decide

theorem test_positions_prune :
    ([128, 129, 192, 193, 254, 63, 127, 191] : List Byte).map
        (fun p => view (·.rx.arbIgnore) (.arbRespond p) five)
      = [true, false, false, true, true, false, false, false].map some := by decide

theorem test_position_classes :
    [Instr.posReadBit 2, .posReadComplement 1, .posPruneSet 2, .posPruneClear 1, .posNewRound,
      .posNoop 1].map (fun i => view (fun t => (t.result, t.rx.arbIgnore)) i five)
      = [some (.bool true, false), some (.bool true, false), some (.bool false, true),
        some (.bool false, true), some (.bool true, false), some (.bool false, false)] := by decide

/-- V41: a silenced responder answers 255 only. -/
theorem test_position_classes_silenced :
    [Instr.posReadBit 2, .posReadComplement 1, .posPruneSet 3, .posPruneClear 0, .posNewRound,
      .posNoop 1].map (fun i => view (fun t => (t.result, t.rx.arbIgnore)) i
        { five with rx := { five.rx with arbIgnore := true } })
      = [some (.bool false, true), some (.bool false, true), some (.bool false, true),
        some (.bool false, true), some (.bool true, false), some (.bool false, true)] := by decide

/-! ### Classifier and checksums (V1, V2, V14 to V18) -/

theorem test_classify_order :
    [47, 45, 50, 51, 75, 76, 26, 2400].map (fun t : Nat => classify exTiming (BitVec.ofNat 32 t) .medium)
      = [.zero, .zero, .zero, .ackreq, .ackreq, .invalid, .invalid, .zero] := by decide

theorem test_classify_operation :
    view (·.result) (.classify 12 .fast) dec = some (.symbol .one) ∧
    view (·.result) (.classify 30 .slow) dec = some (.symbol .one) ∧
    view (·.result) (.classify 4294967295 .fallback) dec = some (.symbol .invalid) := by decide

theorem test_ack_duration :
    view (·.result) (.ackDuration 3600 .default) dec = some (.word 100) ∧
    view (·.result) (.ackDuration 225 .default) dec = some (.word 75) ∧
    view (·.result) (.ackDuration 3240 .medium) dec = some (.word 100) := by decide

theorem test_crc8_next :
    view (·.result) (.crc8Next 0 0x8D) dec = some (.byte 0x71) ∧
    view (·.result) (.crc8Next 0xFF 0) dec = some (.byte 0x35) := by decide

theorem test_crc8_hello_world :
    crc8Of [0x48, 0x65, 0x6C, 0x6C, 0x6F, 0x20, 0x57, 0x6F, 0x72, 0x6C, 0x64] = 26 := by decide +kernel

theorem test_crc32_next :
    view (·.result) (.crc32Next 0x7FFFFFFF 0x80) dec = some (.word 0x27045FDA) ∧
    view (·.result) (.crc32Next 0x80000000 0) dec = some (.word 0x690CE0EE) := by decide

theorem test_crc32_value :
    view (·.result) (.crc32Value 0x552A89C7) dec = some (.word 0x29EE5C18) ∧
    crc32Of [0x48, 0x65, 0x6C, 0x6C, 0x6F, 0x20, 0x57, 0x6F, 0x72, 0x6C, 0x64] = 0x552A89C7 := by decide +kernel

/-! ### TransmitEngine (V45 to V47, P7) -/

theorem test_tx_init :
    view (fun t => (t.result, t.tx.rate, t.tx.numAckreq)) (.txInit ⟨1, 2, 8, true⟩) dec
      = some (.bool true, .fast, 8) ∧
    view (fun t => (t.result, t.tx.rate)) (.txInit ⟨5, 2, 8, true⟩) dec = some (.bool false, .default) := by decide

theorem test_tx_set_transfer_rate :
    view (fun t => (t.result, t.tx.rate)) (.txSetTransferRate 2) dec = some (.bool true, .medium) ∧
    view (fun t => (t.result, t.tx.rate)) (.txSetTransferRate 2) { dec with tx := { dec.tx with state := .packet } }
      = some (.bool false, .default) := by decide

theorem test_tx_packet :
    view (fun t => (t.result, t.tx.state)) (.txPacket [0xA5]) dec = some (.bool true, .preamble) ∧
    view (·.tx.state) (.txPacket [0xA5]) { dec with tx := { dec.tx with numPreamble := 0 } } = some .packet := by
  decide

theorem test_tx_packet_refused :
    view (fun t => (t.result, t.tx.state)) (.txPacket []) dec = some (.bool false, .idle) ∧
    view (fun t => (t.result, t.tx.state)) (.txPacket (List.replicate 269 0)) dec = some (.bool false, .idle) := by
  decide +kernel

/-- Idle, then the last bit of the last byte of [A5] (V46). -/
theorem test_tx_transmit :
    view (fun t => (t.result, t.trace, t.tx.polarity)) .txTransmit dec
      = some (.word 75, [.trackOutputs true], true) ∧
    view (fun t => (t.result, t.tx.state, t.tx.bitIdx)) .txTransmit
      { dec with tx := { dec.tx with state := .packet, pkt := [0xA5], bitIdx := 0 } }
      = some (.word 75, .packetEnd, 8) := by decide

/-- V47, K = 1: begin, then end, in the single tick; P7: tick 8 of 8. -/
theorem test_tx_ackreq_tick :
    view (fun t => (t.result, t.trace, t.tx.state)) .txTransmit
      { dec with tx := { dec.tx with state := .ackReq, numAckreq := 1 } }
      = some (.word 225, [.trackOutputs true, .ackreqBegin, .ackreqEnd], .idle) ∧
    view (fun t => (t.trace, t.tx.state)) .txTransmit
      { dec with tx := { dec.tx with state := .ackReq, numAckreq := 8, ackCount := 7, polarity := true } }
      = some ([.trackOutputs false, .ackreqChannel2 8, .ackreqEnd], .idle) := by decide

/-! ### EntrySequenceDetector (V50 to V53) -/

theorem test_entry_completes :
    view (fun t => (t.trace, t.es.buf)) (.entryWrite 105 0)
      { dec with es := { dec.es with buf := exZpp.toList.take 6 } } = some ([.zppEntry], []) ∧
    view (fun t => (t.trace, t.es.buf)) (.entryWrite 105 0)
      { dec with es := { dec.es with buf := exFw.toList.take 8 } } = some ([.zsuEntry], []) := by decide

theorem test_entry_clears_or_ignores :
    view (·.es.buf) (.entryWrite 0 3) { dec with es := { dec.es with buf := exZpp.toList.take 3 } } = some [] ∧
    view (·.es.buf) (.entryWrite 7 0x12) { dec with es := { dec.es with buf := exZpp.toList.take 1 } }
      = some (exZpp.toList.take 1) ∧
    view (·.es.buf) (.entryWrite 104 0xFE) dec = some [] ∧
    view (·.es.buf) (.entryWrite 7 0xFE) { dec with es := { dec.es with buf := exZpp.toList.take 2 } }
      = some [] := by decide

/-- The candidates of 46_entry_sequence.md R226, at DEC's id, are among the sequences that the builders give. -/
theorem test_candidate_sequences :
    zppSequence ⟨.cv7, .cv104, true, false, false⟩ ⟨false, true, true, true, 0xAA, 0x55, 0x55, 0xAA⟩ = exZpp ∧
    fwSequence ⟨.cv7, .cv104, true, true, true⟩ ⟨false, true, true, true, 0x06, 0x04, 0x32, 0x00⟩ = exFw ∧
    sequenceInShape 0xFE exZpp.toList = true ∧ sequenceInShape 0xFF exFw.toList = true := by decide

/-! ### Reset -/

theorem test_reset_all :
    view (fun t => (t.rx, t.tx, t.es)) (.reset .all decArgs)
      { live with tx := { live.tx with state := .ackReq, polarity := true } }
      = some (dec.rx, dec.tx, dec.es) := by decide

theorem test_reset_one :
    view (fun t => (t.rx.selected, t.tx.state)) (.reset .transmit decArgs)
      { live with tx := { live.tx with state := .ackReq } } = some (true, .idle) := by decide

/-! ### The hypotheses of the statements are met: one witness for each, at the ends of its ranges -/

theorem witness_DecodeInvertsEncode :
    codesDistinct exParams.codes = true ∧
    (Instr.ping (some 1) (some 2) [5]).wellFormed exParams .default = true ∧
    (Instr.zsuUpdate (List.replicate 264 0)).wellFormed exParams .default = true ∧
    (Instr.symAckreq 202).wellFormed exParams .default = true ∧
    (Instr.posPruneClear 62).wellFormed exParams .default = true := by decide +kernel

theorem witness_EncodeInvertsDecode :
    decode exParams .default .packet [0xFF, 0xFF, 0xFF, 0xF2, 0x70] = .ok (.busy [0x70]) := by decide

theorem witness_StepRunsTheDecodedOperation :
    let s := { dec with requests := [[8], [7]] }
    s.requests = [8] :: [[7]] ∧ decodeOperation [8] = .ok .rxActive ∧
      (s.halted = false ∨ isReset .rxActive = true) := by decide

theorem witness_StalledBusLeavesTheStateParked : dec.requests = [] := rfl

theorem witness_NothingButResetAfterNoReturn :
    let s := { dec with halted := true, requests := [[8]] }
    s.halted = true ∧ s.requests = [[8]] ∧ decodeOperation [8] = .ok .rxActive ∧
      isReset .rxActive = false := by decide

theorem witness_ExecuteRunsTheDequeuedPacket :
    let s := { live with rx := { live.rx with queue := [[0xFF, 0xFF, 0xFF, 0xF2]] } }
    s.rx.queue = [[0xFF, 0xFF, 0xFF, 0xF2]] ∧
      decodePacket s.params.codes [0xFF, 0xFF, 0xFF, 0xF2] = .ok (.busy []) ∧ dec.rx.queue = [] := by decide

theorem witness_ArbRespondRunsThePositionCode : decodePosition [0xFF] = .ok .posNewRound := by decide

/-- Lengths 8 and 9 are the ends of the first qualifier's range, 12 and 13 those of the second. -/
theorem witness_PingSelectsByItsQualifiers :
    let p : List Byte := [0xFF, 0xFF, 0xFF, 0xFF, 0x11, 0x22, 0x33, 0x44, 0x06, 0x04, 0x32, 0x00, 0x05]
    { dec.rx with queue := [p] }.queue = p :: [] ∧ 4 ≤ p.length ∧
    commandWord p = dec.params.codes.ping ∧ commandWord (p.take 8) = dec.params.codes.ping ∧
    commandWord (p.take 9) = dec.params.codes.ping ∧ commandWord (p.take 12) = dec.params.codes.ping ∧
    4 ≤ (p.take 8).length := by decide

theorem witness_UnselectedDecoderDropsCommands_dequeued :
    let p : List Byte := [0xFF, 0xFF, 0xFF, 0xF9]
    { dec.rx with queue := [p] }.queue = p :: [] ∧ 4 ≤ p.length ∧
    commandWord p ≠ dec.params.codes.ping ∧ dec.rx.selected = false := by decide

theorem witness_UnselectedDecoderDropsCommands :
    (Instr.cvWrite none []).layer = .packet ∧ (∀ sn did tail, Instr.cvWrite none [] ≠ .ping sn did tail) ∧
      dec.rx.selected = false := ⟨rfl, fun _ _ _ h => (nomatch h), rfl⟩

/-- Code 5; code 3 at rate 4; code 4 at rate 4. -/
theorem witness_ConfigTransferRateRejectsOrAdopts :
    live.rx.selected = true ∧ 4 < (5 : Byte).toNat ∧ (3 : Byte).toNat < rateCode live.rx.transferRate ∧
    (4 : Byte).toNat = rateCode .default ∧ rateCode live.rx.transferRate ≤ rateCode .default := by decide

theorem witness_RateCodesRequestTheirRate :
    (Instr.rateSlow, Rate.slow) ∈ [(Instr.rateFallback, Rate.fallback), (.rateFast, .fast),
      (.rateMedium, .medium), (.rateSlow, .slow), (.rateDefault, .default)] ∧
    rateCode .slow < rateCode live.rx.transferRate ∧
    rateCode { live.rx with transferRate := .slow }.transferRate ≤ rateCode .slow := by decide

theorem witness_BinarySearchDelegatesToArbitration : live.rx.selected = true := rfl

theorem witness_CvReadCallsTheHost : live.rx.selected = true := rfl

theorem witness_CvWriteCallsTheHost : live.rx.selected = true := rfl

theorem witness_DelegatedCommandsAskTheHost :
    let k := live.params.codes
    let body : List Byte := [0x1B]
    (Instr.zppExit body, k.zppExit) ∈
      [(Instr.busy body, k.busy), (.zsuSalsa20Iv body, k.zsuSalsa20Iv), (.zsuErase body, k.zsuErase),
        (.zsuUpdate body, k.zsuUpdate), (.zsuCrc32Start body, k.zsuCrc32Start),
        (.zsuCrc32Result body, k.zsuCrc32Result), (.zsuCrc32ResultExit body, k.zsuCrc32ResultExit),
        (.zppValidQuery body, k.zppValidQuery), (.zppLcDcQuery body, k.zppLcDcQuery),
        (.zppErase body, k.zppErase), (.zppUpdate body, k.zppUpdate), (.zppUpdateEnd body, k.zppUpdateEnd),
        (.zppExit body, k.zppExit), (.zppExitReset body, k.zppExitReset), (.unlisted 5 body, 5)] ∧
    live.rx.selected = true ∧ live.params.host.extExecute = true ∧
    { live with extAnswers := [.returns true] }.extAnswer = .returns true ∧
    { live with extAnswers := [.neverReturns] }.extAnswer = .neverReturns ∧
    { exParams.host with extExecute := false }.extExecute = false := by decide

theorem witness_ExecuteCompletesAndKeepsTheReceiver :
    ∀ p ∈ { live.rx with queue := [[0xFF, 0xFF, 0xFF, 0xF2]] }.queue.head?, 4 ≤ p.length := by decide

theorem witness_PreambleCountsThenStartsData :
    dec.rx.state = .preamble ∧ dec.params.preambleMin ≤ { dec.rx with bitCount := 2 }.bitCount.toNat ∧
    { dec.rx with bitCount := 1 }.bitCount.toNat < dec.params.preambleMin := by decide

theorem witness_DataShiftsInAWholeByte :
    let rx := { live.rx with state := .data, buf := List.replicate 267 0 }
    rx.state = .data ∧ rx.bitCount = 0 ∧ rx.buf.length ≠ exParams.pktCap ∧
    { rx with buf := List.replicate 268 0 }.buf.length = exParams.pktCap := by decide +kernel

/-- Seven bits counted meet the clause of Invalid too. -/
theorem witness_DataShiftsOneBit :
    let rx := { live.rx with state := .data, bitCount := 6 }
    rx.state = .data ∧ rx.bitCount.toNat ≤ 6 ∧ { rx with bitCount := 7 }.state = .data := by decide

theorem witness_EndBitGoesOnOrRestarts : { live.rx with state := .endBit }.state = .endBit := rfl

/-- Four bytes; five with one packet waiting; five with none, of either checksum class, right and wrong. -/
theorem witness_StopBitValidatesThePacket :
    let rx := (received [0xFF, 0xFF, 0xFF, 0xF2, 0x70] live).rx
    let up := (received [0xFF, 0xFF, 0xFF, 0xF8, 0x00] live).rx
    rx.state = .endBit ∧ (received [0xFF, 0xFF, 0xFF, 0xF2] live).rx.buf.length < exParams.pktMin ∧
    exParams.pktMin ≤ rx.buf.length ∧
    exParams.queueCap - { rx with queue := [[1, 2, 3, 4, 5]] }.queue.length ≤ 1 ∧
    2 ≤ exParams.queueCap - rx.queue.length ∧
    (∃ c ∈ exParams.crc32Cmds, commandWord up.buf = commandCode exParams.codes c) ∧ up.crc32 ≠ 0 ∧
    { up with crc32 := 0 }.crc32 = 0 ∧
    (∀ c ∈ exParams.crc32Cmds, commandWord rx.buf ≠ commandCode exParams.codes c) ∧ rx.crc8 = 0 ∧
    (received [0xFF, 0xFF, 0xFF, 0xF2, 0x71] live).rx.crc8 ≠ 0 := by decide +kernel

theorem witness_AckreqSymbolOverridesEveryState :
    live.rx.state ≠ .ackReq ∧ live.rx.selected = true ∧ dec.rx.state ≠ .ackReq ∧ dec.rx.selected = false ∧
    { live.rx with state := .ackReq }.state = .ackReq := by decide

theorem witness_AckreqWindowEndsInRestart :
    { dec.rx with state := .ackReq }.state = .ackReq ∧
    (Instr.symOne 75 ∈ [Instr.symZero 75, .symOne 75, .symInvalid 75]) ∧
    (Instr.symAckreq 225 = .symAckreq 225 ∧ dec.rx.selected = false) := by decide

theorem witness_AckreqWindowPulsesItsTwoChannels :
    let rx := { live.rx with state := .ackReq, nack := true, ack := true }
    rx.state = .ackReq ∧ rx.bitCount = 0 ∧ rx.selected = true := by decide

/-- Upper ends of the zero, one and ackreq windows at rate 2, and a time beyond. -/
theorem witness_ClassifyTestsWindowsInOrder :
    let w := timingRow exTiming .medium
    let f := exTiming.fallback
    (w.zeroMin.toNat ≤ 50 ∧ 50 ≤ w.zeroMax.toNat) ∧
    (w.oneMin.toNat ≤ 25 ∧ 25 ≤ w.oneMax.toNat ∧ 25 < w.zeroMin.toNat ∧ 25 < f.zeroMin.toNat) ∧
    (w.ackreqMin.toNat ≤ 75 ∧ 75 ≤ w.ackreqMax.toNat ∧ w.zeroMax.toNat < 75 ∧ w.oneMax.toNat < 75 ∧
      75 < f.oneMin.toNat ∧ 75 < f.zeroMin.toNat) ∧
    (w.ackreqMax.toNat < 76 ∧ w.zeroMax.toNat < 76 ∧ w.oneMax.toNat < 76 ∧ 76 < f.oneMin.toNat ∧
      76 < f.zeroMin.toNat ∧ 76 < f.ackreqMin.toNat) := by decide

theorem witness_AckDurationPrefersTheFallbackRow :
    let f := exTiming.fallback
    (f.ackreqMin.toNat ≤ 3240 ∧ 3240 ≤ f.ackreqMax.toNat) ∧
    ¬ (f.ackreqMin.toNat ≤ 3239 ∧ 3239 ≤ f.ackreqMax.toNat) := by decide

/-- The ends of the ranges, silenced and not. -/
theorem witness_ArbRespondFollowsThePositionRanges :
    (255 : Byte).toNat = 255 ∧ ((254 : Byte).toNat ≠ 255 ∧
      { live.rx with arbIgnore := true }.arbIgnore = true) ∧ live.rx.arbIgnore = false ∧
    (62 : Byte).toNat ≤ 62 ∧ (64 ≤ (64 : Byte).toNat ∧ (126 : Byte).toNat ≤ 126) ∧
    (128 ≤ (128 : Byte).toNat ∧ (190 : Byte).toNat ≤ 190) ∧
    (192 ≤ (192 : Byte).toNat ∧ (254 : Byte).toNat ≤ 254) ∧
    ((63 : Byte).toNat = 63 ∧ (127 : Byte).toNat = 127 ∧ (191 : Byte).toNat = 191) := by decide

theorem witness_PositionClassesAnswer :
    (62 : BitVec 6) ≠ 63 ∧ (2 : BitVec 2) ≠ 3 ∧ { live.rx with arbIgnore := true }.arbIgnore = true ∧
    live.rx.arbIgnore = false := by decide

theorem witness_TransmitConfiguredOnlyWhileIdle :
    dec.tx.state = .idle ∧ (⟨4, 2, 8, true⟩ : TxConfig).rate.toNat = rateCode .default ∧
    { dec.tx with state := .packet }.state ≠ .idle ∧ 4 < (⟨5, 2, 8, true⟩ : TxConfig).rate.toNat ∧
    (0 : Byte).toNat = rateCode .fallback ∧ 4 < (255 : Byte).toNat := by decide

theorem witness_TxPacketLoadsWhenIdle :
    dec.tx.state = .idle ∧ 1 ≤ ([0xA5] : List Byte).length ∧
    (List.replicate 268 (0 : Byte)).length ≤ dec.params.pktCap ∧
    { dec.tx with state := .ackReq }.state ≠ .idle ∧ ([] : List Byte).length = 0 ∧
    dec.params.pktCap < (List.replicate 269 (0 : Byte)).length := by decide +kernel

/-- Every state, both sides of the preamble's end, the start bit, bits 7 and 0. -/
theorem witness_TransmitTicksInEveryState :
    let early := { dec.tx with state := .preamble, preCount := 2 }
    let last := { dec.tx with state := .preamble, preCount := 3 }
    let start := { dec.tx with state := .packet, pkt := [0xA5] }
    dec.tx.state = .idle ∧
    (early.state = .preamble ∧ (early.preCount + 1).toNat < early.numPreamble.toNat) ∧
    (last.state = .preamble ∧ last.numPreamble.toNat ≤ (last.preCount + 1).toNat) ∧
    (start.state = .packet ∧ start.bitIdx = 8 ∧ { start with bitIdx := 7 }.bitIdx ≠ 8 ∧
      { start with bitIdx := 7 }.bitIdx ≠ 0 ∧ { start with bitIdx := 0 }.bitIdx = 0) ∧
    { dec.tx with state := .packetEnd }.state = .packetEnd ∧
    { dec.tx with state := .ackReq }.state = .ackReq := by decide

theorem witness_AckreqTickCallsBack : { dec.tx with state := .ackReq }.state = .ackReq := rfl

theorem witness_TransmitEmitsTheFrame :
    ∃ s0 : State, exec (.txPacket [0xA5]) dec = .next s0 ∧ s0.result = .bool true := ⟨_, rfl, by decide⟩

/-- A sender at the fallback rate and a receiver at rate 4; Busy, with its trailer. -/
theorem witness_TransmitReceiveRoundTrip :
    let a := { dec with tx := { dec.tx with rate := .fallback } }
    (∃ a0 : State, exec (.txPacket [0xFF, 0xFF, 0xFF, 0xF2, 0x70]) a = .next a0 ∧ a0.result = .bool true) ∧
    dec.params = a.params ∧ timingWellFormed a.params.timing = true ∧
    a.params.preambleMin ≤ a.tx.numPreamble.toNat ∧ dec.rx.state = .preamble ∧
    (dec.rx.transferRate = a.tx.rate ∨ a.tx.rate = .fallback) ∧
    a.params.pktMin ≤ ([0xFF, 0xFF, 0xFF, 0xF2, 0x70] : List Byte).length ∧ 2 ≤ a.params.queueCap ∧
    dec.rx.queue = [] ∧ trailerOk a.params [0xFF, 0xFF, 0xFF, 0xF2, 0x70] = true :=
  ⟨⟨_, rfl, by decide⟩, rfl, by decide, by decide, rfl, .inr rfl, by decide, by decide, rfl, by decide +kernel⟩

theorem witness_EntryWriteClearsOrIgnores :
    ((0 : U32) ≠ 7 ∧ (0 : U32) ≠ 104 ∧ (0 : U32) ≠ 105) ∧
    ({ dec.es with buf := [⟨7, 0xFE⟩, ⟨104, 0xAA⟩] }.buf = [⟨7, 0xFE⟩] ++ [⟨104, 0xAA⟩] ∧
      (⟨104, 0xAA⟩ : EntryPair).index = 104) ∧
    (dec.es.buf = [] ∧ (0xFD : Byte) ≠ 0xFE ∧ (0xFD : Byte) ≠ 0xFF) := by decide

/-- A first pair kept, a wrong first pair, and the last pair of each sequence. -/
theorem witness_EntryWriteMatchesTheTarget :
    (([⟨7, 0xFE⟩] : List EntryPair) = exZpp.toList.take 1 ∧ 1 < exZpp.toList.length) ∧
    (([⟨104, 0xFE⟩] : List EntryPair) ≠ exZpp.toList.take 1) ∧
    (exZpp.toList.take 6 ++ ([⟨105, 0⟩] : List EntryPair) = exZpp.toList ∧
      ∀ x ∈ (exZpp.toList.take 6).getLast?, x.index ≠ 105) ∧
    (exFw.toList.take 8 ++ ([⟨105, 0⟩] : List EntryPair) = (seqFwFor exParams dec.es.decoderId).toList ∧
      (exFw.toList.take 8 ++ ([⟨105, 0⟩] : List EntryPair)).head?.map EntryPair.value = some 0xFF) := by decide

theorem witness_UnlockSequenceCallsItsHookOnce :
    dec.es.buf = [] ∧ sequenceWellFormed 0xFE dec.params.seqZpp.toList = true ∧
    sequenceWellFormed 0xFF (seqFwFor dec.params dec.es.decoderId).toList = true := by decide

theorem witness_HookOnlyOnTheWholeSequence :
    ∃ t : State, exec (.entryWrite 105 0) { dec with es := { dec.es with buf := exZpp.toList.take 6 } } = .next t ∧
      t.trace ≠ dec.trace := ⟨_, rfl, by decide⟩

theorem witness_ResetOneByOneIsResetAll :
    [ResetScope.entry, .receive, .transmit].Perm [.receive, .transmit, .entry] := by decide

theorem witness_ComponentsShareNoState :
    ∃ t : State, exec .txTransmit dec = .next t ∧ (∀ sc a, Instr.txTransmit ≠ .reset sc a) ∧
      ((∃ c, Instr.txTransmit = .txInit c) ∨ (∃ r, Instr.txTransmit = .txSetTransferRate r) ∨
        (∃ p, Instr.txTransmit = .txPacket p) ∨ Instr.txTransmit = .txTransmit) :=
  ⟨_, rfl, fun _ _ h => (nomatch h), .inr (.inr (.inr rfl))⟩

theorem witness_ComponentsShareNoState_receive :
    ∃ t : State, exec (.rxReceive 75) dec = .next t ∧ (∀ sc a, Instr.rxReceive 75 ≠ .reset sc a) ∧
      (∀ c, Instr.rxReceive 75 ≠ .txInit c) ∧ (∀ r, Instr.rxReceive 75 ≠ .txSetTransferRate r) ∧
      (∀ p, Instr.rxReceive 75 ≠ .txPacket p) ∧ Instr.rxReceive 75 ≠ .txTransmit ∧
      (∀ idx val, Instr.rxReceive 75 ≠ .entryWrite idx val) :=
  ⟨_, rfl, fun _ _ h => (nomatch h), fun _ h => (nomatch h), fun _ h => (nomatch h), fun _ h => (nomatch h),
    fun h => (nomatch h), fun _ _ h => (nomatch h)⟩

theorem witness_TraceIsAppendOnly :
    ∃ t : State, exec (.cvRead (some (8, 3)) [0x75]) live = .next t := ⟨_, rfl⟩

theorem witness_OnlyPingWritesSelected :
    ∃ t : State, exec (.ping none none [0x8D]) dec = .next t ∧ t.rx.selected ≠ dec.rx.selected :=
  ⟨_, rfl, by decide⟩

theorem witness_ConfigurationOnlyClimbsUntilReset :
    ∃ t : State, exec .rateDefault { live with rx := { live.rx with active := true } } = .next t ∧
      (∀ sc a, Instr.rateDefault ≠ .reset sc a) ∧
      { live with rx := { live.rx with active := true } }.rx.active = true := ⟨_, rfl, fun _ _ h => (nomatch h), rfl⟩

/-- DEC after reset has the invariant. -/
theorem dec_inv : dec.Inv where
  rx := {
    queueSize := Nat.zero_le _
    queueValid := fun _ h => (nomatch h)
    bufSize := Nat.zero_le _
    preambleEmpty := fun _ => rfl
    dataCount := fun h => (nomatch h)
    endBitCount := fun h => (nomatch h)
    checksums := fun h => h.elim (fun h => nomatch h) (fun h => nomatch h) }
  tx := {
    pktSize := Nat.zero_le _
    preambleCount := fun h => (nomatch h)
    byteInRange := fun h => (nomatch h)
    ackreqCount := fun h => (nomatch h) }
  es := .inl rfl

/-- A Ping waits in the queue and the host has issued `rx_execute`: the step selects the decoder. -/
def pinged : State :=
  { dec with rx := { dec.rx with queue := [[0xFF, 0xFF, 0xFF, 0xFF, 0x8D]] }, requests := [[7]] }

theorem witness_EveryStepKeepsTheInvariant :
    pinged.Inv ∧ ∃ t : State, step pinged = .next t ∧ t.rx.selected = true ∧ t.rx.queue = [] :=
  ⟨{ dec_inv with
      rx := { dec_inv.rx with
        queueSize := by decide
        queueValid := fun p h => by
          obtain rfl : p = [0xFF, 0xFF, 0xFF, 0xFF, 0x8D] := by simpa [pinged] using h
          exact ⟨by decide, by decide, by decide +kernel⟩ } },
    _, rfl, by decide, by decide⟩

theorem witness_EveryInstructionCompletes : dec.Inv ∧ 4 ≤ dec.params.pktMin := ⟨dec_inv, by decide⟩

end Sys2Proof.Tests
end

section
/-!
PROOF. What a step does with the request in front: it is fetched, and its operation runs unless the
machine is stuck in a handler (00_scope.md R4, R8; 43_execute_dispatch.md R173).
-/

namespace Sys2Proof.Machine

theorem State.fetch_of_requests_cons {s : State} {p : List Byte} {rest : List (List Byte)}
    (h : s.requests = p :: rest) :
    s.fetch = some (decodeOperation p, { s with requests := rest }) := by
  simp only [State.fetch, h]

theorem step_of_fetch_ok {s s' : State} {i : Instr} (h : s.fetch = some (.ok i, s')) :
    step s = if s'.halted && !isReset i then .fault .stuckInHandler else exec i s' := by
  simp only [step, h]

/-- A step on a request that decodes, with the check that follows a handler that did not return. -/
theorem step_of_requests_cons {s : State} {p : List Byte} {rest : List (List Byte)} {i : Instr}
    (hreq : s.requests = p :: rest) (hdec : decodeOperation p = .ok i) :
    step s = if s.halted && !isReset i then .fault .stuckInHandler
      else exec i { s with requests := rest } :=
  step_of_fetch_ok (by rw [State.fetch_of_requests_cons hreq, hdec])

/-- Settles O4: the request in front is fetched and decoded, and either premise on the run shuts out the
fault of a handler that did not return. -/
theorem stepRunsTheDecodedOperation : Obligations.StepRunsTheDecodedOperation := by
  intro s p rest i hreq hdec hrun
  have hfree : ¬ (s.halted && !isReset i) = true := by
    rcases hrun with hgoing | hreset
    · simp [hgoing]
    · simp [hreset]
  rw [step_of_requests_cons hreq hdec, if_neg hfree]

end Sys2Proof.Machine
end

section
/-!
PROOF. The invariant of the ReceiveEngine (42_receive_engine.md R135), handler by handler, and `Moves`: what
every operation but `reset` keeps of the ReceiveEngine (10_state.md R16 to R21).
-/

namespace Sys2Proof.Machine

/-! ### The shared operations on the ReceiveEngine -/

/-- Folding one more byte is one more round (41_crc.md R110, R111). -/
theorem crc8Of_append_singleton (p : List Byte) (b : Byte) :
    crc8Of (p ++ [b]) = crc8Next (crc8Of p) b := by
  simp [crc8Of, crc8Fold]

/-- Folding one more byte is one more round (41_crc.md R112). -/
theorem crc32Of_append_singleton (p : List Byte) (b : Byte) :
    crc32Of (p ++ [b]) = crc32Next (crc32Of p) b := by
  simp [crc32Of, crc32Fold]

/-- The eighth bit: the byte is stored and folded, or the full buffer restarts the machine
(42_receive_engine.md R125). -/
theorem ReceiveEngine.completeByte_cases (k : Params) (rx : ReceiveEngine) :
    (rx.buf.length = k.pktCap ∧ rx.completeByte k = rx.restart) ∨
    (rx.buf.length ≠ k.pktCap ∧ rx.completeByte k = { rx with
      buf := rx.buf ++ [rx.acc], crc8 := crc8Next rx.crc8 rx.acc, crc32 := crc32Next rx.crc32 rx.acc,
      acc := 0, bitCount := 0, state := .endBit }) := by
  rcases rx.bufAppend_cases k rx.acc with ⟨hfull, -⟩ | ⟨hroom, happ⟩
  · exact .inl ⟨hfull, by rw [ReceiveEngine.completeByte, if_pos hfull]⟩
  · exact .inr ⟨hroom, by rw [ReceiveEngine.completeByte, if_neg hroom, happ]⟩

/-- The stop bit, field by field (42_receive_engine.md R126). -/
theorem ReceiveEngine.stopBit_eq (k : Params) (rx : ReceiveEngine) :
    rx.stopBit k = { rx with
      state := .ackReq, bitCount := 0, acc := 0, crc8 := 0, crc32 := 0xFFFFFFFF, buf := [],
      nack := (rx.validate k).nack, ack := (rx.validate k).ack,
      queue := if (rx.validate k).queued then rx.queue ++ [rx.buf] else rx.queue } := by
  unfold ReceiveEngine.stopBit
  dsimp only
  split <;> rfl

/-- A packet is queued only when it is long enough, the queue has more than one free slot and the register
of its class is zero (42_receive_engine.md R127 to R129). -/
theorem ReceiveEngine.validate_queued {k : Params} {rx : ReceiveEngine}
    (h : (rx.validate k).queued = true) :
    k.pktMin ≤ rx.buf.length ∧ rx.queue.length + 1 < k.queueCap ∧
      (if isCrc32Class k (commandWord rx.buf) then rx.crc32 = 0 else rx.crc8 = 0) := by
  rcases rx.validate_cases k with ⟨-, hv⟩ | ⟨-, -, hv⟩ | ⟨hmin, hfree, hv⟩
  · simp [hv] at h
  · simp [hv] at h
  · rw [hv, checksumVerdict_queued] at h
    simp only [ReceiveEngine.busy, decide_eq_false_iff_not] at hfree
    refine ⟨hmin, by omega, ?_⟩
    split at h <;> simpa [*] using h

/-! ### The invariant -/

section

variable {k : Params} {rx : ReceiveEngine}

theorem ReceiveEngine.construct_inv (k : Params) (a : ResetArgs) : (ReceiveEngine.construct a).Inv k where
  queueSize := Nat.zero_le _
  queueValid _ hp := nomatch hp
  bufSize := Nat.zero_le _
  preambleEmpty _ := rfl
  dataCount h := nomatch h
  endBitCount h := nomatch h
  checksums h := h.elim (nomatch ·) (nomatch ·)

/-- In `AckReq` the invariant is about the queue and the buffer's size alone. -/
theorem ReceiveEngine.Inv.of_ackReq (hs : rx.state = .ackReq) (hsize : rx.queue.length ≤ k.queueCap - 1)
    (hvalid : ∀ p ∈ rx.queue, queueable k p) (hbuf : rx.buf.length ≤ k.pktCap) : rx.Inv k where
  queueSize := hsize
  queueValid := hvalid
  bufSize := hbuf
  preambleEmpty h := by simp [hs] at h
  dataCount h := by simp [hs] at h
  endBitCount h := by simp [hs] at h
  checksums h := by simp [hs] at h

theorem ReceiveEngine.Inv.restart (h : rx.Inv k) : rx.restart.Inv k where
  queueSize := h.queueSize
  queueValid := h.queueValid
  bufSize := Nat.zero_le _
  preambleEmpty _ := rfl
  dataCount h := nomatch h
  endBitCount h := nomatch h
  checksums h := h.elim (nomatch ·) (nomatch ·)

theorem ReceiveEngine.Inv.queuePop (h : rx.Inv k) : rx.queuePop.Inv k :=
  { h with
    queueSize := (by simp [ReceiveEngine.queuePop] : _ ≤ rx.queue.length).trans h.queueSize
    queueValid := fun p hp => h.queueValid p (List.mem_of_mem_tail hp) }

theorem ReceiveEngine.Inv.preambleHandler (h : rx.Inv k) (hs : rx.state = .preamble) (sym : Symbol) :
    (rx.preambleHandler k sym).Inv k := by
  unfold ReceiveEngine.preambleHandler
  split
  · exact { h with
      dataCount := fun hd => by simp [hs] at hd
      endBitCount := fun he => by simp [hs] at he }
  · split
    · exact {
        queueSize := h.queueSize
        queueValid := h.queueValid
        bufSize := Nat.zero_le _
        preambleEmpty := fun hp => nomatch hp
        dataCount := fun _ => Nat.zero_le _
        endBitCount := fun he => nomatch he
        checksums := fun _ => ⟨rfl, rfl⟩ }
    · exact h.restart

/-- A bit that does not complete its byte. -/
theorem ReceiveEngine.Inv.shiftBit (h : rx.Inv k) (hs : rx.state = .data) (bit : Bool)
    (hpart : (rx.shiftBit bit).bitCount ≠ 8) : (rx.shiftBit bit).Inv k :=
  { h with
    dataCount := fun _ => by
      have hle := h.dataCount hs
      simp only [ReceiveEngine.shiftBit] at hpart ⊢
      bv_omega
    endBitCount := fun he => by simp [ReceiveEngine.shiftBit, hs] at he }

/-- The bit that completes its byte. -/
theorem ReceiveEngine.Inv.completeByte (h : rx.Inv k) (hs : rx.state = .data) (bit : Bool) :
    ((rx.shiftBit bit).completeByte k).Inv k := by
  rcases (rx.shiftBit bit).completeByte_cases k with ⟨-, heq⟩ | ⟨hroom, heq⟩ <;> rw [heq]
  · exact { h.restart with }
  · obtain ⟨hcrc8, hcrc32⟩ := h.checksums (.inl hs)
    exact {
      queueSize := h.queueSize
      queueValid := h.queueValid
      bufSize := by
        have hlt := lt_of_le_of_ne h.bufSize hroom
        simpa [ReceiveEngine.shiftBit] using hlt
      preambleEmpty := fun hp => nomatch hp
      dataCount := fun hd => nomatch hd
      endBitCount := fun _ => ⟨rfl, by simp⟩
      checksums := fun _ => by
        simp [ReceiveEngine.shiftBit, hcrc8, hcrc32, crc8Of_append_singleton, crc32Of_append_singleton] }

theorem ReceiveEngine.Inv.dataHandler (h : rx.Inv k) (hs : rx.state = .data) (sym : Symbol) :
    (rx.dataHandler k sym).Inv k := by
  unfold ReceiveEngine.dataHandler
  split
  · exact h.restart
  · dsimp only
    split
    · exact h.completeByte hs _
    · exact h.shiftBit hs _ ‹_›

/-- What the validator lets into the queue may stand there: in `EndBit` the registers are the checksums of
the buffer (42_receive_engine.md R129, R135). -/
theorem ReceiveEngine.Inv.queueable_buf (h : rx.Inv k) (hs : rx.state = .endBit)
    (hq : (rx.validate k).queued = true) : queueable k rx.buf := by
  obtain ⟨hmin, -, hcrc⟩ := ReceiveEngine.validate_queued hq
  obtain ⟨hcrc8, hcrc32⟩ := h.checksums (.inr hs)
  refine ⟨hmin, h.bufSize, ?_⟩
  rw [hcrc8, hcrc32] at hcrc
  unfold trailerOk
  split <;> simpa [*] using hcrc

theorem ReceiveEngine.Inv.stopBit (h : rx.Inv k) (hs : rx.state = .endBit) : (rx.stopBit k).Inv k := by
  rw [ReceiveEngine.stopBit_eq]
  refine .of_ackReq rfl ?_ ?_ (Nat.zero_le _) <;> dsimp only <;> split
  · obtain ⟨-, hfree, -⟩ := ReceiveEngine.validate_queued ‹_›
    rw [List.length_append, List.length_singleton]
    omega
  · exact h.queueSize
  · intro p hp
    rcases List.mem_append.1 hp with hold | hnew
    · exact h.queueValid p hold
    · rw [List.mem_singleton.1 hnew]
      exact h.queueable_buf hs ‹_›
  · exact h.queueValid

theorem ReceiveEngine.Inv.endBitHandler (h : rx.Inv k) (hs : rx.state = .endBit) (sym : Symbol) :
    (rx.endBitHandler k sym).Inv k := by
  unfold ReceiveEngine.endBitHandler
  split
  · exact { h with
      preambleEmpty := fun hp => nomatch hp
      dataCount := fun _ => by simp [(h.endBitCount hs).1]
      endBitCount := fun he => nomatch he
      checksums := fun _ => h.checksums (.inr hs) }
  · split
    · exact h.stopBit hs
    · exact h.restart

end

/-! ### What every operation but `reset` keeps -/

/-- The registers that `Moves` speaks of: identity, rate, activity and selection. -/
def ReceiveEngine.registers (rx : ReceiveEngine) : U32 × U32 × Rate × Bool × Bool :=
  (rx.serialNumber, rx.decoderId, rx.transferRate, rx.active, rx.selected)

/-- What an operation other than `reset` may make of the ReceiveEngine: the identity is kept, the rate
register does not go down, the active flag does not fall, the selected flag changes only under the condition
`selects`, and the invariant is kept (10_state.md R17, R18, R21; 42_receive_engine.md R135). -/
structure ReceiveEngine.Moves (k : Params) (selects : Prop) (rx rx' : ReceiveEngine) : Prop where
  serialNumber : rx'.serialNumber = rx.serialNumber
  decoderId : rx'.decoderId = rx.decoderId
  rate : rateCode rx.transferRate ≤ rateCode rx'.transferRate
  active : rx.active = true → rx'.active = true
  selected : rx'.selected ≠ rx.selected → selects
  inv : rx.Inv k → rx'.Inv k

section

variable {k : Params} {P : Prop} {rx rx' rx'' : ReceiveEngine}

theorem ReceiveEngine.Moves.of_registers (h : rx'.registers = rx.registers) (hinv : rx.Inv k → rx'.Inv k) :
    rx.Moves k P rx' := by
  simp only [ReceiveEngine.registers, Prod.mk.injEq] at h
  obtain ⟨hserial, hid, hrate, hactive, hselected⟩ := h
  exact ⟨hserial, hid, hrate ▸ le_rfl, hactive.trans, absurd hselected, hinv⟩

theorem ReceiveEngine.Moves.refl (rx : ReceiveEngine) : rx.Moves k P rx := .of_registers rfl id

theorem ReceiveEngine.Moves.trans (h : rx.Moves k P rx') (h' : rx'.Moves k P rx'') : rx.Moves k P rx'' where
  serialNumber := h'.serialNumber.trans h.serialNumber
  decoderId := h'.decoderId.trans h.decoderId
  rate := h.rate.trans h'.rate
  active := h'.active ∘ h.active
  selected hne := by
    by_cases hmid : rx'.selected = rx.selected
    · exact h'.selected (hmid ▸ hne)
    · exact h.selected hmid
  inv := h'.inv ∘ h.inv

theorem ReceiveEngine.Moves.mono {Q : Prop} (h : rx.Moves k P rx') (hPQ : P → Q) : rx.Moves k Q rx' :=
  { h with selected := hPQ ∘ h.selected }

theorem ReceiveEngine.moves_ack (rx : ReceiveEngine) (b : Bool) : rx.Moves k P { rx with ack := b } :=
  .of_registers rfl fun h => { h with }

/-- A Ping selects or deselects (43_execute_dispatch.md R151). -/
theorem ReceiveEngine.moves_select (rx : ReceiveEngine) (b : Bool) :
    rx.Moves k True { rx with selected := b, ack := false } :=
  ⟨rfl, rfl, le_rfl, id, fun _ => trivial, fun h => { h with }⟩

theorem ReceiveEngine.moves_arbitrate (rx : ReceiveEngine) (code : PositionCode) :
    rx.Moves k P (rx.arbitrate code) :=
  .of_registers rfl fun h => { h with }

theorem ReceiveEngine.moves_queuePop (rx : ReceiveEngine) : rx.Moves k P rx.queuePop :=
  .of_registers rfl .queuePop

theorem ReceiveEngine.moves_restart (rx : ReceiveEngine) : rx.Moves k P rx.restart :=
  .of_registers rfl .restart

theorem ReceiveEngine.moves_ackreqOverride (rx : ReceiveEngine) (sym : Symbol) :
    rx.Moves k P (rx.ackreqOverride sym) := by
  unfold ReceiveEngine.ackreqOverride
  split
  · exact .of_registers rfl fun h => .of_ackReq rfl h.queueSize h.queueValid h.bufSize
  · exact .refl rx

theorem ReceiveEngine.moves_preambleHandler (hs : rx.state = .preamble) (sym : Symbol) :
    rx.Moves k P (rx.preambleHandler k sym) := by
  have hinv : rx.Inv k → (rx.preambleHandler k sym).Inv k := fun h => h.preambleHandler hs sym
  unfold ReceiveEngine.preambleHandler at hinv ⊢
  split_ifs at hinv ⊢
  · exact .of_registers rfl hinv
  · exact ⟨rfl, rfl, le_rfl, fun _ => rfl, fun h => absurd rfl h, hinv⟩
  · exact rx.moves_restart

theorem ReceiveEngine.dataHandler_registers (k : Params) (rx : ReceiveEngine) (sym : Symbol) :
    (rx.dataHandler k sym).registers = rx.registers := by
  unfold ReceiveEngine.dataHandler
  dsimp only
  split_ifs
  · rfl
  · rcases (rx.shiftBit (decide (sym = .one))).completeByte_cases k with ⟨-, heq⟩ | ⟨-, heq⟩ <;>
      rw [heq] <;> rfl
  · rfl

theorem ReceiveEngine.moves_dataHandler (hs : rx.state = .data) (sym : Symbol) :
    rx.Moves k P (rx.dataHandler k sym) :=
  .of_registers (rx.dataHandler_registers k sym) fun h => h.dataHandler hs sym

theorem ReceiveEngine.endBitHandler_registers (k : Params) (rx : ReceiveEngine) (sym : Symbol) :
    (rx.endBitHandler k sym).registers = rx.registers := by
  unfold ReceiveEngine.endBitHandler
  split_ifs
  · rfl
  · rw [ReceiveEngine.stopBit_eq]
    rfl
  · rfl

theorem ReceiveEngine.moves_endBitHandler (hs : rx.state = .endBit) (sym : Symbol) :
    rx.Moves k P (rx.endBitHandler k sym) :=
  .of_registers (rx.endBitHandler_registers k sym) fun h => h.endBitHandler hs sym

/-- Counting on in the window (42_receive_engine.md R131). -/
theorem ReceiveEngine.moves_count (hs : rx.state = .ackReq) (n : Byte) :
    rx.Moves k P { rx with bitCount := n } :=
  .of_registers rfl fun h => .of_ackReq hs h.queueSize h.queueValid h.bufSize

end

end Sys2Proof.Machine
end

section
/-!
PROOF. The invariants of the TransmitEngine (10_state.md R24, R28) and of the EntrySequenceDetector
(46_entry_sequence.md R223), operation by operation.
-/

namespace Sys2Proof.Machine

/-! ### The TransmitEngine -/

section

variable {k : Params} {tx : TransmitEngine}

/-- In `Idle` the invariant is about the loaded packet's size alone. -/
theorem TransmitEngine.Inv.of_idle (hs : tx.state = .idle) (hsize : tx.pkt.length ≤ k.pktCap) :
    tx.Inv k where
  pktSize := hsize
  preambleCount h := by simp [hs] at h
  byteInRange h := by simp [hs] at h
  ackreqCount h := by simp [hs] at h

/-- In `Preamble` the count is below the number of preamble bits and a packet is loaded. -/
theorem TransmitEngine.Inv.of_preamble (hs : tx.state = .preamble) (hsize : tx.pkt.length ≤ k.pktCap)
    (hcount : tx.preCount < tx.numPreamble) (hpos : 1 ≤ tx.pkt.length) : tx.Inv k where
  pktSize := hsize
  preambleCount _ := ⟨hcount, hpos⟩
  byteInRange h := by simp [hs] at h
  ackreqCount h := by simp [hs] at h

/-- In `Packet` the index points into the packet. -/
theorem TransmitEngine.Inv.of_packet (hs : tx.state = .packet) (hsize : tx.pkt.length ≤ k.pktCap)
    (hbyte : tx.byteIdx < tx.pkt.length) : tx.Inv k where
  pktSize := hsize
  preambleCount h := by simp [hs] at h
  byteInRange _ := hbyte
  ackreqCount h := by simp [hs] at h

/-- In `PacketEnd` the invariant is about the loaded packet's size alone. -/
theorem TransmitEngine.Inv.of_packetEnd (hs : tx.state = .packetEnd) (hsize : tx.pkt.length ≤ k.pktCap) :
    tx.Inv k where
  pktSize := hsize
  preambleCount h := by simp [hs] at h
  byteInRange h := by simp [hs] at h
  ackreqCount h := by simp [hs] at h

/-- In `AckReq` the count is below the number of ackreq bits. -/
theorem TransmitEngine.Inv.of_ackReq (hs : tx.state = .ackReq) (hsize : tx.pkt.length ≤ k.pktCap)
    (hcount : tx.ackCount < tx.numAckreq) : tx.Inv k where
  pktSize := hsize
  preambleCount h := by simp [hs] at h
  byteInRange h := by simp [hs] at h
  ackreqCount _ := hcount

theorem TransmitEngine.construct_inv (k : Params) (a : ResetArgs) : (TransmitEngine.construct a).Inv k :=
  .of_idle rfl (Nat.zero_le _)

/-- An accepted packet is not empty and fits (44_transmit_engine.md R182). -/
theorem TransmitEngine.load_inv {p : List Byte} (h : tx.accepts k p = true) : (tx.load p).Inv k := by
  simp only [TransmitEngine.accepts, Bool.and_eq_true, decide_eq_true_eq] at h
  obtain ⟨⟨-, hne⟩, hsize⟩ := h
  have hpos : 1 ≤ p.length := List.length_pos_iff.2 hne
  by_cases hpre : tx.numPreamble = 0
  · exact .of_packet (if_pos hpre) hsize hpos
  · exact .of_preamble (if_neg hpre) hsize (show 0 < tx.numPreamble by bv_omega) hpos

theorem TransmitEngine.Inv.preambleTick (h : tx.Inv k) (hs : tx.state = .preamble) :
    tx.preambleTick.Inv k := by
  obtain ⟨-, hpos⟩ := h.preambleCount hs
  unfold TransmitEngine.preambleTick
  split
  · exact .of_packet rfl h.pktSize hpos
  · next hmore => exact .of_preamble hs h.pktSize (BitVec.not_le.1 hmore) hpos

theorem TransmitEngine.Inv.packetTick (h : tx.Inv k) (hs : tx.state = .packet) :
    tx.packetTick.Inv k := by
  have hbyte := h.byteInRange hs
  unfold TransmitEngine.packetTick
  split_ifs with _ _ hlast
  · exact .of_packet hs h.pktSize hbyte
  · exact .of_packetEnd rfl h.pktSize
  · exact .of_packet hs h.pktSize (lt_of_le_of_ne hbyte hlast)
  · exact .of_packet hs h.pktSize hbyte

theorem TransmitEngine.Inv.packetEndTick (h : tx.Inv k) : tx.packetEndTick.Inv k := by
  by_cases hnone : tx.numAckreq = 0
  · exact .of_idle (if_pos hnone) h.pktSize
  · exact .of_ackReq (if_neg hnone) h.pktSize (show 0 < tx.numAckreq by bv_omega)

theorem TransmitEngine.Inv.ackreqTick (h : tx.Inv k) (hs : tx.state = .ackReq) :
    tx.ackreqTick.Inv k := by
  have hlt := h.ackreqCount hs
  by_cases hlast : tx.ackCount + 1 = tx.numAckreq
  · exact .of_idle (if_pos hlast) h.pktSize
  · refine .of_ackReq ((if_neg hlast).trans hs) h.pktSize ?_
    change tx.ackCount + 1 < tx.numAckreq
    bv_omega

theorem TransmitEngine.Inv.advance (h : tx.Inv k) : tx.advance.Inv k := by
  unfold TransmitEngine.advance
  split
  · exact h
  · exact h.preambleTick ‹_›
  · exact h.packetTick ‹_›
  · exact h.packetEndTick
  · exact h.ackreqTick ‹_›

/-- The polarity is outside the invariant. -/
theorem TransmitEngine.Inv.tick (h : tx.Inv k) : tx.tick.Inv k := { h.advance with }

end

/-! ### The EntrySequenceDetector -/

theorem EntryDetector.construct_inv (k : Params) (a : ResetArgs) : (EntryDetector.construct a).Inv k :=
  .inl rfl

/-- A sequence that the comparison keeps is a proper part of its target (46_entry_sequence.md R223). -/
theorem EntryDetector.inv_entryMatch (k : Params) (id : U32) (buf : List EntryPair) :
    EntryDetector.Inv k ⟨(entryMatch k id buf).1, id⟩ := by
  rcases entryMatch_cases k id buf with heq | ⟨_, _, -, -, heq⟩ |
    ⟨target, hook, htarget, hpart, hlen, heq⟩ <;> rw [heq]
  · exact .inl rfl
  · exact .inl rfl
  · obtain ⟨p, hhead, hp⟩ := Option.bind_eq_some_iff.1 htarget
    have hle : buf.length ≤ target.length := by
      have := congrArg List.length hpart
      rw [List.length_take] at this
      omega
    exact .inr ⟨p.value, target, hook, by simp [hhead], hp, hpart, lt_of_le_of_ne hle hlen⟩

theorem EntryDetector.Inv.write {k : Params} {es : EntryDetector} (h : es.Inv k) (p : EntryPair) :
    EntryDetector.Inv k { es with buf := (es.write k p).1 } := by
  rcases es.write_cases k p with ⟨-, heq⟩ | ⟨-, -, heq⟩ | ⟨-, -, heq⟩ <;> rw [heq]
  · exact .inl rfl
  · exact h
  · exact EntryDetector.inv_entryMatch k es.decoderId _

end Sys2Proof.Machine
end

section
/-!
PROOF. What one instruction can do, said once: `Effect` splits it by the component it writes, and every
statement about all instructions follows from its four cases (10_state.md R33, R34; 20_memory.md R48).
-/

namespace Sys2Proof.Machine

/-! ### The kinds of effect -/

/-- What every instruction leaves: the parameters, the pending requests and the calls already made
(10_state.md R33, 20_memory.md R48). -/
structure State.Extends (s t : State) : Prop where
  params : t.params = s.params
  requests : t.requests = s.requests
  trace : s.trace <+: t.trace

/-- Only the ReceiveEngine is written, and its selected flag only under the condition `selects`. -/
structure State.ReceiverStep (selects : Prop) (s t : State) : Prop extends State.Extends s t where
  tx : t.tx = s.tx
  es : t.es = s.es
  rx : s.rx.Moves s.params selects t.rx

/-- Only the TransmitEngine is written. -/
structure State.TransmitStep (s t : State) : Prop extends State.Extends s t where
  rx : t.rx = s.rx
  es : t.es = s.es
  inv : s.tx.Inv s.params → t.tx.Inv s.params

/-- Only the EntrySequenceDetector is written, and not its decoder id. -/
structure State.EntryStep (s t : State) : Prop extends State.Extends s t where
  rx : t.rx = s.rx
  tx : t.tx = s.tx
  decoderId : t.es.decoderId = s.es.decoderId
  inv : s.es.Inv s.params → t.es.Inv s.params

/-- The transmit operations. -/
def Transmits (i : Instr) : Prop :=
  (∃ c, i = .txInit c) ∨ (∃ r, i = .txSetTransferRate r) ∨ (∃ p, i = .txPacket p) ∨ i = .txTransmit

/-- The instruction is a Ping, or `rx_execute` with a Ping in front of the queue. -/
def RunsPing (i : Instr) (s : State) : Prop :=
  (∃ sn did tail, i = .ping sn did tail) ∨
  (i = .rxExecute ∧ ∃ p sn did tail, s.rx.queue.head? = some p ∧
    decodePacket s.params.codes p = .ok (.ping sn did tail))

/-- The effect of an instruction on the state, by the component that it may write. -/
inductive Effect : Instr → State → State → Prop
  | reset {s t : State} (sc : ResetScope) (a : ResetArgs) (ext : s.Extends t) (inv : s.Inv → t.Inv) :
      Effect (.reset sc a) s t
  | transmit {i : Instr} {s t : State} (hi : Transmits i) (h : s.TransmitStep t) : Effect i s t
  | entry {s t : State} (idx : U32) (val : Byte) (h : s.EntryStep t) : Effect (.entryWrite idx val) s t
  | receive {i : Instr} {s t : State} (hnt : ¬ Transmits i) (hne : ∀ idx val, i ≠ .entryWrite idx val)
      (h : s.ReceiverStep (RunsPing i s) t) : Effect i s t

/-! ### The shared operations are receiver steps -/

theorem State.Extends.refl (s : State) : s.Extends s := ⟨rfl, rfl, List.prefix_rfl⟩

theorem State.Extends.trans {s t u : State} (h : s.Extends t) (h' : t.Extends u) : s.Extends u :=
  ⟨h'.params.trans h.params, h'.requests.trans h.requests, h.trace.trans h'.trace⟩

section

variable {P Q : Prop} {s t u : State}

theorem State.ReceiverStep.trans (h : s.ReceiverStep P t) (h' : t.ReceiverStep P u) :
    s.ReceiverStep P u where
  toExtends := h.toExtends.trans h'.toExtends
  tx := h'.tx.trans h.tx
  es := h'.es.trans h.es
  rx := h.rx.trans (h.params ▸ h'.rx)

theorem State.ReceiverStep.mono (h : s.ReceiverStep P t) (hPQ : P → Q) : s.ReceiverStep Q t :=
  { h with rx := h.rx.mono hPQ }

/-- Whatever else the model's own fields hold, a step of the ReceiveEngine is a receiver step. -/
theorem State.Extends.receiverStep (h : s.Extends t) (htx : t.tx = s.tx) (hes : t.es = s.es)
    (hrx : s.rx.Moves s.params P t.rx) : s.ReceiverStep P t := { h with tx := htx, es := hes, rx := hrx }

theorem State.withRx_step (s : State) {rx : ReceiveEngine} (h : s.rx.Moves s.params P rx) :
    s.ReceiverStep P (s.withRx rx) :=
  State.Extends.receiverStep ⟨rfl, rfl, List.prefix_rfl⟩ rfl rfl h

theorem State.withAck_step (s : State) (b : Bool) : s.ReceiverStep P (s.withAck b) :=
  s.withRx_step (s.rx.moves_ack b)

theorem State.calls_step (s : State) (cs : List HostCall) : s.ReceiverStep P (s.calls cs) :=
  State.Extends.receiverStep ⟨rfl, rfl, List.prefix_append _ _⟩ rfl rfl (.refl _)

theorem State.done_step (s : State) (r : OpResult) : s.ReceiverStep P (s.done r) :=
  State.Extends.receiverStep ⟨rfl, rfl, List.prefix_rfl⟩ rfl rfl (.refl _)

theorem State.ReceiverStep.done (h : s.ReceiverStep P t) (r : OpResult) : s.ReceiverStep P (t.done r) :=
  h.trans (t.done_step r)

theorem State.dropCvAnswer_step (s : State) : s.ReceiverStep P s.dropCvAnswer :=
  State.Extends.receiverStep ⟨by simp, by simp, by simp⟩ (by simp) (by simp)
    (by rw [State.dropCvAnswer_rx]; exact .refl _)

theorem State.askCv_step (s : State) (c : HostCall) : s.ReceiverStep P (s.askCv c) :=
  ((s.calls_step [c]).trans (State.dropCvAnswer_step _)).trans (State.withAck_step _ _)

theorem State.askExt_step (s : State) (cmd : U32) (p : List Byte) : s.ReceiverStep P (s.askExt cmd p) := by
  rcases s.askExt_cases cmd p with ⟨-, heq⟩ | ⟨b, -, -, heq⟩ | ⟨-, -, heq⟩ <;> rw [heq]
  · exact s.withAck_step false
  · exact State.Extends.receiverStep ⟨by simp, by simp, by simp⟩ (by simp) (by simp) (s.rx.moves_ack b)
  · exact State.Extends.receiverStep ⟨by simp, by simp, by simp⟩ (by simp) (by simp)
      (by simpa using .refl _)

theorem State.gated_step (s : State) {run : State → State} (h : s.ReceiverStep P (run s)) :
    s.ReceiverStep P (s.gated run) := by
  rcases s.gated_cases run with ⟨-, heq⟩ | ⟨-, heq⟩ <;> rw [heq]
  · exact h
  · exact s.withRx_step (.refl _)

theorem State.delegate_step (s : State) (cmd : U32) (body : List Byte) :
    s.ReceiverStep P (s.delegate cmd body) := s.gated_step (s.askExt_step cmd _)

theorem State.requestRate_step (s : State) (r : Rate) : s.ReceiverStep P (s.requestRate r) := by
  rcases State.requestRate_cases r s with ⟨-, heq⟩ | ⟨hle, heq⟩ <;> rw [heq]
  · exact s.withAck_step true
  · exact s.withRx_step ⟨rfl, rfl, hle, id, fun h => absurd rfl h, fun h => { h with }⟩

theorem State.respond_step (s : State) (code : PositionCode) : s.ReceiverStep P (s.respond code) :=
  (s.withRx_step (s.rx.moves_arbitrate code)).done _

theorem State.search_step (s : State) (position : Option Byte) : s.ReceiverStep P (s.search position) := by
  cases position with
  | none => exact s.withAck_step false
  | some b => exact (s.withRx_step (s.rx.moves_arbitrate _)).trans (State.withAck_step _ _)

theorem State.readCv_step (s : State) (fields : Option (U16 × Byte)) :
    s.ReceiverStep P (s.readCv fields) := by
  cases fields with
  | none => exact s.withAck_step false
  | some f => exact s.askCv_step _

theorem State.writeCv_step (s : State) (fields : Option (U16 × Byte)) :
    s.ReceiverStep P (s.writeCv fields) := by
  cases fields with
  | none => exact s.withAck_step false
  | some f => exact s.askCv_step _

theorem State.ackreqHandler_step (s : State) (hs : s.rx.state = .ackReq) (sym : Symbol) (t : U32) :
    s.ReceiverStep P (s.ackreqHandler sym t) := by
  unfold State.ackreqHandler
  split
  · exact s.withRx_step s.rx.moves_restart
  · exact (s.withRx_step (ReceiveEngine.moves_count hs _)).trans (State.calls_step _ _)

theorem State.receiveSymbol_step (s : State) (sym : Symbol) (t : U32) :
    s.ReceiverStep P (s.receiveSymbol sym t) := by
  have hover : s.ReceiverStep P (s.withRx (s.rx.ackreqOverride sym)) :=
    s.withRx_step (s.rx.moves_ackreqOverride sym)
  refine hover.trans ?_
  unfold State.receiveSymbol
  dsimp only
  split
  · exact State.withRx_step _ (ReceiveEngine.moves_preambleHandler ‹_› sym)
  · exact State.withRx_step _ (ReceiveEngine.moves_dataHandler ‹_› sym)
  · exact State.withRx_step _ (ReceiveEngine.moves_endBitHandler ‹_› sym)
  · exact State.ackreqHandler_step _ ‹_› sym t

end

end Sys2Proof.Machine
end

section
/-!
PROOF. The effect of each layer of instructions, and of all of them: `exec_effect` is the one case analysis
over `exec`.
-/

namespace Sys2Proof.Machine

/-! ### Equations of the dispatching operations -/

/-- `rx_receive` consumes the symbol of its time (42_receive_engine.md R120). -/
theorem execRxReceive_eq (t : U32) (s : State) :
    execRxReceive t s =
      .next ((s.receiveSymbol (classify s.params.timing t s.rx.transferRate) t).done .none) := by
  unfold execRxReceive
  cases classify s.params.timing t s.rx.transferRate <;> rfl

/-- `arb_respond` responds to the class of its code (45_arbitration.md R211). -/
theorem execArbRespond_eq (pos : Byte) (s : State) :
    execArbRespond pos s = .next (s.respond (positionOfByte pos)) := by
  unfold execArbRespond
  cases positionOfByte pos <;> rfl

/-- A rate byte requests its rate, or names none and is rejected (43_execute_dispatch.md R153). -/
theorem requestRateByte_cases (b : Byte) (s : State) :
    (∃ r, rateOfByte b = some r ∧ requestRateByte b s = .next ((s.requestRate r).done .none)) ∨
    (rateOfByte b = none ∧ requestRateByte b s = .next ((s.withAck true).done .none)) := by
  unfold requestRateByte
  cases rateOfByte b with
  | none => exact .inr ⟨rfl, rfl⟩
  | some r => exact .inl ⟨r, rfl, by cases r <;> rfl⟩

/-- A dequeued packet runs as the instruction of its command (43_execute_dispatch.md R150). -/
theorem runCommand_eq_exec (w : U32) (body : List Byte) (s : State) (c : Option Command) :
    runCommand w body s c = exec (decodeCommand w body c) s := by
  cases c with
  | none => rfl
  | some c => cases c <;> rfl

theorem decodeCommand_layer (w : U32) (body : List Byte) (c : Option Command) :
    (decodeCommand w body c).layer = .packet := by
  cases c with
  | none => rfl
  | some c => cases c <;> rfl

/-- A dequeued packet that completes decodes to the packet instruction that it runs
(43_execute_dispatch.md R150). -/
theorem runPacket_next {p : List Byte} {s t : State} (h : runPacket p s = .next t) :
    ∃ i, decodePacket s.params.codes p = .ok i ∧ i.layer = .packet ∧ exec i s = .next t := by
  unfold runPacket at h
  split at h
  · rw [runCommand_eq_exec] at h
    exact ⟨_, rfl, decodeCommand_layer _ _ _, h⟩
  · cases h

/-- `rx_execute` does nothing on an empty queue, and runs the packet in front otherwise
(43_execute_dispatch.md R150). -/
theorem execRxExecute_cases (s : State) :
    (s.rx.queue = [] ∧ execRxExecute s = .next (s.done .none)) ∨
    (∃ p, s.rx.queue.head? = some p ∧ execRxExecute s = runPacket p (s.withRx s.rx.queuePop)) := by
  unfold execRxExecute
  cases s.rx.queue with
  | nil => exact .inl ⟨rfl, rfl⟩
  | cons p rest => exact .inr ⟨p, rfl, rfl⟩

/-- `tx_init` configures an idle engine, or is refused (44_transmit_engine.md R180). -/
theorem execTxInit_cases (c : TxConfig) (s : State) :
    (∃ r, s.tx.state = .idle ∧ rateOfByte c.rate = some r ∧ execTxInit c s =
      .next ((s.withTx { s.tx with
        rate := r, numPreamble := c.numPreamble, numAckreq := c.numAckreq,
        invert := c.invert }).done (.bool true))) ∨
    execTxInit c s = .next (s.done (.bool false)) := by
  unfold execTxInit
  split
  · exact .inl ⟨_, ‹_›, ‹_›, rfl⟩
  · exact .inr rfl

/-- `tx_set_transfer_rate` sets the rate of an idle engine, or is refused (44_transmit_engine.md R181). -/
theorem execTxSetTransferRate_cases (b : Byte) (s : State) :
    (∃ r, s.tx.state = .idle ∧ rateOfByte b = some r ∧
      execTxSetTransferRate b s = .next ((s.withTx { s.tx with rate := r }).done (.bool true))) ∨
    execTxSetTransferRate b s = .next (s.done (.bool false)) := by
  unfold execTxSetTransferRate
  split
  · exact .inl ⟨_, ‹_›, ‹_›, rfl⟩
  · exact .inr rfl

/-- `tx_packet` loads an accepted packet, or is refused (44_transmit_engine.md R182). -/
theorem execTxPacket_cases (p : List Byte) (s : State) :
    (s.tx.accepts s.params p = true ∧
      execTxPacket p s = .next ((s.withTx (s.tx.load p)).done (.bool true))) ∨
    execTxPacket p s = .next (s.done (.bool false)) := by
  unfold execTxPacket
  split
  · exact .inl ⟨‹_›, rfl⟩
  · exact .inr rfl

/-! ### The layers inside an operation -/

section

variable {P : Prop} {i : Instr} {s t : State}

/-- What holds of the next state that an outcome is known to be holds of the one it answers. -/
theorem of_outcome_next {R : State → Prop} {o : Host.Outcome State Fault Refusal} {u : State}
    (hu : R u) (heq : o = .next u) (h : o = .next t) : R t := by
  cases heq.symm.trans h
  exact hu

theorem execPing_step (sn did : Option U32) (h : execPing sn did s = .next t) :
    s.ReceiverStep True t :=
  of_outcome_next ((s.withRx_step (s.rx.moves_select _)).done .none) rfl h

theorem requestRateByte_step (b : Byte) (h : requestRateByte b s = .next t) : s.ReceiverStep P t := by
  rcases requestRateByte_cases b s with ⟨r, -, heq⟩ | ⟨-, heq⟩
  · exact of_outcome_next ((s.requestRate_step r).done .none) heq h
  · exact of_outcome_next ((s.withAck_step true).done .none) heq h

theorem execConfigTransferRate_step (rate : Option Byte) (h : execConfigTransferRate rate s = .next t) :
    s.ReceiverStep P t := by
  unfold execConfigTransferRate at h
  split at h
  · cases rate with
    | none => exact of_outcome_next ((s.withAck_step false).done .none) rfl h
    | some b => exact requestRateByte_step b h
  · exact of_outcome_next (s.done_step .none) rfl h

/-- A packet command writes the ReceiveEngine only, and the selected flag only as a Ping. -/
theorem exec_packet_step (hl : i.layer = .packet) (h : exec i s = .next t) :
    s.ReceiverStep (∃ sn did tail, i = .ping sn did tail) t := by
  cases i with
  | ping sn did tail => exact (execPing_step sn did h).mono fun _ => ⟨sn, did, tail, rfl⟩
  | configTransferRate rate _ => exact execConfigTransferRate_step rate h
  | binarySearch pos _ => exact of_outcome_next ((s.gated_step (s.search_step pos)).done .none) rfl h
  | cvRead fields _ => exact of_outcome_next ((s.gated_step (s.readCv_step fields)).done .none) rfl h
  | cvWrite fields _ => exact of_outcome_next ((s.gated_step (s.writeCv_step fields)).done .none) rfl h
  | busy body | zsuSalsa20Iv body | zsuErase body | zsuUpdate body | zsuCrc32Start body
  | zsuCrc32Result body | zsuCrc32ResultExit body | zppValidQuery body | zppLcDcQuery body
  | zppErase body | zppUpdate body | zppUpdateEnd body | zppExit body | zppExitReset body
  | unlisted _ body => exact of_outcome_next ((s.delegate_step _ body).done .none) rfl h
  | _ => simp [Instr.layer] at hl

/-- A symbol writes the ReceiveEngine only, and never the selected flag. -/
theorem exec_edge_step (hl : i.layer = .edge) (h : exec i s = .next t) : s.ReceiverStep P t := by
  cases i with
  | symZero u | symOne u | symAckreq u | symInvalid u =>
    exact of_outcome_next ((s.receiveSymbol_step _ u).done .none) rfl h
  | _ => simp [Instr.layer] at hl

/-- A position code writes the ReceiveEngine only, and never the selected flag. -/
theorem exec_position_step (hl : i.layer = .position) (h : exec i s = .next t) :
    s.ReceiverStep P t := by
  cases i with
  | posReadBit _ | posReadComplement _ | posPruneSet _ | posPruneClear _ | posNewRound | posNoop _ =>
    exact of_outcome_next (s.respond_step _) rfl h
  | _ => simp [Instr.layer] at hl

/-- A rate code writes the ReceiveEngine only, and never the selected flag. -/
theorem exec_rate_step (hl : i.layer = .rate) (h : exec i s = .next t) : s.ReceiverStep P t := by
  cases i with
  | rateFallback | rateFast | rateMedium | rateSlow | rateDefault =>
    exact of_outcome_next ((s.requestRate_step _).done .none) rfl h
  | _ => simp [Instr.layer] at hl

/-! ### The operations -/

theorem execRxExecute_step (h : execRxExecute s = .next t) :
    s.ReceiverStep (∃ p sn did tail, s.rx.queue.head? = some p ∧
      decodePacket s.params.codes p = .ok (.ping sn did tail)) t := by
  rcases execRxExecute_cases s with ⟨-, heq⟩ | ⟨p, hp, heq⟩
  · exact of_outcome_next (s.done_step .none) heq h
  · obtain ⟨i, hdec, hl, hexec⟩ := runPacket_next (heq.symm.trans h)
    refine (s.withRx_step s.rx.moves_queuePop).trans ((exec_packet_step hl hexec).mono ?_)
    rintro ⟨sn, did, tail, rfl⟩
    exact ⟨p, sn, did, tail, hp, hdec⟩

/-- Another engine, whatever calls are recorded and whatever the result is. -/
theorem State.withTx_calls_step (s : State) {tx : TransmitEngine} (cs : List HostCall) (r : OpResult)
    (h : s.tx.Inv s.params → tx.Inv s.params) : s.TransmitStep (((s.withTx tx).calls cs).done r) :=
  { params := rfl, requests := rfl, trace := List.prefix_append _ _, rx := rfl, es := rfl, inv := h }

/-- Another engine, and no call. -/
theorem State.withTx_step (s : State) {tx : TransmitEngine} (r : OpResult)
    (h : s.tx.Inv s.params → tx.Inv s.params) : s.TransmitStep ((s.withTx tx).done r) :=
  { params := rfl, requests := rfl, trace := List.prefix_rfl, rx := rfl, es := rfl, inv := h }

/-- A refused request writes the result only. -/
theorem State.refused_step (s : State) (r : OpResult) : s.TransmitStep (s.done r) := s.withTx_step r id

theorem execTxInit_step (c : TxConfig) (h : execTxInit c s = .next t) : s.TransmitStep t := by
  rcases execTxInit_cases c s with ⟨r, hs, -, heq⟩ | heq
  · refine of_outcome_next (s.withTx_step _ ?_) heq h
    exact fun hi => .of_idle hs hi.pktSize
  · exact of_outcome_next (s.refused_step _) heq h

theorem execTxSetTransferRate_step (b : Byte) (h : execTxSetTransferRate b s = .next t) :
    s.TransmitStep t := by
  rcases execTxSetTransferRate_cases b s with ⟨r, hs, -, heq⟩ | heq
  · refine of_outcome_next (s.withTx_step _ ?_) heq h
    exact fun hi => .of_idle hs hi.pktSize
  · exact of_outcome_next (s.refused_step _) heq h

theorem execTxPacket_step (p : List Byte) (h : execTxPacket p s = .next t) : s.TransmitStep t := by
  rcases execTxPacket_cases p s with ⟨hacc, heq⟩ | heq
  · exact of_outcome_next (s.withTx_step _ fun _ => TransmitEngine.load_inv hacc) heq h
  · exact of_outcome_next (s.refused_step _) heq h

theorem execTxTransmit_step (h : execTxTransmit s = .next t) : s.TransmitStep t :=
  of_outcome_next (s.withTx_calls_step _ _ TransmitEngine.Inv.tick) rfl h

theorem execEntryWrite_step (idx : U32) (val : Byte) (h : execEntryWrite idx val s = .next t) :
    s.EntryStep t := by
  cases h
  exact { params := rfl, requests := rfl, trace := List.prefix_append _ _, rx := rfl, tx := rfl,
          decoderId := rfl, inv := fun hi => hi.write _ }

theorem execReset_effect (sc : ResetScope) (a : ResetArgs) (h : execReset sc a s = .next t) :
    Effect (.reset sc a) s t := by
  cases h
  have hrx := ReceiveEngine.construct_inv s.params a
  have htx := TransmitEngine.construct_inv s.params a
  have hes := EntryDetector.construct_inv s.params a
  cases sc with
  | all => exact .reset _ _ ⟨rfl, rfl, List.prefix_rfl⟩ fun _ => ⟨hrx, htx, hes⟩
  | receive => exact .reset _ _ ⟨rfl, rfl, List.prefix_rfl⟩ fun hi => { hi with rx := hrx }
  | transmit => exact .reset _ _ ⟨rfl, rfl, List.prefix_rfl⟩ fun hi => { hi with tx := htx }
  | entry => exact .reset _ _ ⟨rfl, rfl, List.prefix_rfl⟩ fun hi => { hi with es := hes }

theorem not_transmits_of_layer (hl : i.layer ≠ .operation) : ¬ Transmits i := by
  rintro (⟨c, rfl⟩ | ⟨r, rfl⟩ | ⟨p, rfl⟩ | rfl) <;> exact hl rfl

theorem ne_entryWrite_of_layer (hl : i.layer ≠ .operation) (idx : U32) (val : Byte) :
    i ≠ .entryWrite idx val := by
  rintro rfl
  exact hl rfl

theorem Effect.of_layer (hl : i.layer ≠ .operation) (h : s.ReceiverStep (RunsPing i s) t) : Effect i s t :=
  .receive (not_transmits_of_layer hl) (ne_entryWrite_of_layer hl) h

theorem exec_operation_effect (hl : i.layer = .operation) (h : exec i s = .next t) : Effect i s t := by
  cases i with
  | reset sc a => exact execReset_effect sc a h
  | classify _ _ | ackDuration _ _ | crc8Next _ _ | crc32Next _ _ | crc32Value _ | rxActive =>
    exact .receive (by simp [Transmits]) nofun (of_outcome_next (s.done_step _) rfl h)
  | rxReceive u =>
    exact .receive (by simp [Transmits]) nofun
      (of_outcome_next ((s.receiveSymbol_step _ u).done .none) (execRxReceive_eq u s) h)
  | rxExecute =>
    exact .receive (by simp [Transmits]) nofun ((execRxExecute_step h).mono fun hp => .inr ⟨rfl, hp⟩)
  | arbRespond pos =>
    exact .receive (by simp [Transmits]) nofun
      (of_outcome_next (s.respond_step _) (execArbRespond_eq pos s) h)
  | entryWrite idx val => exact .entry idx val (execEntryWrite_step idx val h)
  | txInit c => exact .transmit (.inl ⟨c, rfl⟩) (execTxInit_step c h)
  | txSetTransferRate r => exact .transmit (.inr (.inl ⟨r, rfl⟩)) (execTxSetTransferRate_step r h)
  | txPacket p => exact .transmit (.inr (.inr (.inl ⟨p, rfl⟩))) (execTxPacket_step p h)
  | txTransmit => exact .transmit (.inr (.inr (.inr rfl))) (execTxTransmit_step h)
  | _ => simp [Instr.layer] at hl

/-- Every instruction with a next state has one of the four effects. -/
theorem exec_effect (h : exec i s = .next t) : Effect i s t := by
  cases hl : i.layer with
  | operation => exact exec_operation_effect hl h
  | packet => exact .of_layer (by simp [hl]) ((exec_packet_step hl h).mono .inl)
  | edge => exact .of_layer (by simp [hl]) (exec_edge_step hl h)
  | position => exact .of_layer (by simp [hl]) (exec_position_step hl h)
  | rate => exact .of_layer (by simp [hl]) (exec_rate_step hl h)

theorem Effect.state_extends (h : Effect i s t) : s.Extends t := by
  cases h with
  | reset _ _ ext _ => exact ext
  | transmit _ h => exact h.toExtends
  | entry _ _ h => exact h.toExtends
  | receive _ _ h => exact h.toExtends

theorem Effect.inv (h : Effect i s t) (hs : s.Inv) : t.Inv := by
  have hparams := h.state_extends.params
  cases h with
  | reset _ _ _ inv => exact inv hs
  | transmit _ h =>
    exact ⟨by rw [h.rx, hparams]; exact hs.rx, by rw [hparams]; exact h.inv hs.tx,
      by rw [h.es, hparams]; exact hs.es⟩
  | entry _ _ h =>
    exact ⟨by rw [h.rx, hparams]; exact hs.rx, by rw [h.tx, hparams]; exact hs.tx,
      by rw [hparams]; exact h.inv hs.es⟩
  | receive _ _ h =>
    exact ⟨by rw [hparams]; exact h.rx.inv hs.rx, by rw [h.tx, hparams]; exact hs.tx,
      by rw [h.es, hparams]; exact hs.es⟩

/-- A step that answers a next state stays parked or runs an instruction with the request in front taken
(00_scope.md R4, R8). -/
theorem step_next_cases (h : step s = .next t) :
    t = s ∨ ∃ i rest, exec i { s with requests := rest } = .next t := by
  cases hreq : s.requests with
  | nil =>
    rw [step, State.fetch, hreq] at h
    cases h
    exact .inl rfl
  | cons p rest =>
    cases hdec : decodeOperation p with
    | error e =>
      rw [step, State.fetch_of_requests_cons hreq, hdec] at h
      cases h
    | ok i =>
      rw [step_of_requests_cons hreq hdec] at h
      split at h
      · cases h
      · exact .inr ⟨i, rest, h⟩

end

/-! ### The statements -/

/-- Settles O58: the invariant does not speak of the requests, and the effect of the operation that runs
keeps it. -/
theorem everyStepKeepsTheInvariant : Obligations.EveryStepKeepsTheInvariant := by
  intro s t hs h
  rcases step_next_cases h with rfl | ⟨i, rest, hexec⟩
  · exact hs
  · exact (exec_effect hexec).inv { hs with }

/-- Settles O59: each component is as constructed. -/
theorem resetStateHasTheInvariant : Obligations.ResetStateHasTheInvariant where
  rx := ReceiveEngine.construct_inv _ _
  tx := TransmitEngine.construct_inv _ _
  es := EntryDetector.construct_inv _ _

/-- Settles O51: `reset` constructs the three components. -/
theorem resetGivesEveryElementItsValue : Obligations.ResetGivesEveryElementItsValue := by
  intro s a
  rfl

/-- Settles O54: by the component that the effect of the instruction names; a reset constructs its
components alone. -/
theorem componentsShareNoState : Obligations.ComponentsShareNoState := by
  refine ⟨fun i s t h hreset => ?_, fun s a => ⟨_, rfl, rfl, rfl, rfl⟩⟩
  cases exec_effect h with
  | reset sc a => exact absurd rfl (hreset sc a)
  | transmit hi h =>
    refine ⟨fun hinit hrate hpacket htick => ?_, fun _ => h.es, fun _ => h.rx⟩
    rcases hi with ⟨c, rfl⟩ | ⟨r, rfl⟩ | ⟨p, rfl⟩ | rfl
    · exact absurd rfl (hinit c)
    · exact absurd rfl (hrate r)
    · exact absurd rfl (hpacket p)
    · exact absurd rfl htick
  | entry idx val h => exact ⟨fun _ _ _ _ => h.tx, fun hne => absurd rfl (hne idx val), fun _ => h.rx⟩
  | receive hnt hne h =>
    refine ⟨fun _ _ _ _ => h.tx, fun _ => h.es, fun hother => ?_⟩
    rcases hother with hinit | hrate | hpacket | htick | ⟨idx, val, heq⟩
    · exact absurd (.inl hinit) hnt
    · exact absurd (.inr (.inl hrate)) hnt
    · exact absurd (.inr (.inr (.inl hpacket))) hnt
    · exact absurd (.inr (.inr (.inr htick))) hnt
    · exact absurd heq (hne idx val)

/-- Settles O55: every effect extends the trace and keeps the parameters and the requests. -/
theorem traceIsAppendOnly : Obligations.TraceIsAppendOnly := by
  intro i s t h
  obtain ⟨hparams, hrequests, cs, hcs⟩ := (exec_effect h).state_extends
  exact ⟨⟨cs, hcs.symm⟩, hparams, hrequests⟩

/-- Settles O56: of the effects without a reset only that on the ReceiveEngine can write the flag, and it
does so under a Ping. -/
theorem onlyPingWritesSelected : Obligations.OnlyPingWritesSelected := by
  intro i s t h hne
  cases exec_effect h with
  | reset sc a => exact .inr (.inl ⟨sc, a, rfl⟩)
  | transmit _ h => exact absurd (by rw [h.rx]) hne
  | entry _ _ h => exact absurd (by rw [h.rx]) hne
  | receive _ _ h =>
    rcases h.rx.selected hne with hping | hqueued
    · exact .inl hping
    · exact .inr (.inr hqueued)

/-- Settles O57: the effects without a reset keep the ReceiveEngine or move it. -/
theorem configurationOnlyClimbsUntilReset : Obligations.ConfigurationOnlyClimbsUntilReset := by
  intro i s t h hreset
  cases exec_effect h with
  | reset sc a => exact absurd rfl (hreset sc a)
  | transmit _ h => simp [h.rx, h.es]
  | entry _ _ h => simp [h.rx, h.decoderId]
  | receive _ _ h =>
    exact ⟨h.rx.serialNumber, h.rx.decoderId, by rw [h.es], h.rx.rate, h.rx.active⟩

end Sys2Proof.Machine
end

section
/-!
PROOF. The operand forms read back what is written of them, and write back what is read: byte order,
rates, Booleans, scopes, position codes and the fields of a packet (00_scope.md R7, 30_encoding.md R66 to
R74).
-/

namespace Sys2Proof.Machine

/-! ### Byte order -/

theorem be16_extract (w : U16) : be16 (w.extractLsb' 8 8) (w.extractLsb' 0 8) = w :=
  (BitVec.extractLsb'_append_extractLsb'_eq_extractLsb' rfl).trans BitVec.extractLsb'_eq_self

theorem be16Bytes_be16 (a b : Byte) : be16Bytes (be16 a b) = [a, b] := by
  have ha : (be16 a b).extractLsb' 8 8 = a := BitVec.extractLsb'_append_eq_left
  have hb : (be16 a b).extractLsb' 0 8 = b := BitVec.extractLsb'_append_eq_right
  rw [be16Bytes, ha, hb]

theorem be32_extract (w : U32) :
    be32 (w.extractLsb' 24 8) (w.extractLsb' 16 8) (w.extractLsb' 8 8) (w.extractLsb' 0 8) = w := by
  have h16 : w.extractLsb' 24 8 ++ w.extractLsb' 16 8 = w.extractLsb' 16 16 :=
    BitVec.extractLsb'_append_extractLsb'_eq_extractLsb' rfl
  have h8 : w.extractLsb' 16 16 ++ w.extractLsb' 8 8 = w.extractLsb' 8 24 :=
    BitVec.extractLsb'_append_extractLsb'_eq_extractLsb' rfl
  have h0 : w.extractLsb' 8 24 ++ w.extractLsb' 0 8 = w :=
    (BitVec.extractLsb'_append_extractLsb'_eq_extractLsb' rfl).trans BitVec.extractLsb'_eq_self
  rw [be32, h16, h8, h0]

/-- Each byte of a word is found by stepping over the bytes below it. -/
theorem be32Bytes_be32 (a b c d : Byte) : be32Bytes (be32 a b c d) = [a, b, c, d] := by
  have over_d (n : Nat) (hn : 8 ≤ n) :
      (be32 a b c d).extractLsb' n 8 = (a ++ b ++ c).extractLsb' (n - 8) 8 :=
    BitVec.extractLsb'_append_eq_of_le hn
  have over_c (n : Nat) (hn : 8 ≤ n) : (a ++ b ++ c).extractLsb' n 8 = (a ++ b).extractLsb' (n - 8) 8 :=
    BitVec.extractLsb'_append_eq_of_le hn
  have ha : (be32 a b c d).extractLsb' 24 8 = a := by
    rw [over_d 24 (by decide), over_c _ (by decide)]
    exact BitVec.extractLsb'_append_eq_left
  have hb : (be32 a b c d).extractLsb' 16 8 = b := by
    rw [over_d 16 (by decide), over_c _ (by decide)]
    exact BitVec.extractLsb'_append_eq_right
  have hc : (be32 a b c d).extractLsb' 8 8 = c := by
    rw [over_d 8 (by decide)]
    exact BitVec.extractLsb'_append_eq_right
  have hd : (be32 a b c d).extractLsb' 0 8 = d := BitVec.extractLsb'_append_eq_right
  rw [be32Bytes, ha, hb, hc, hd]

/-! ### Rates, Booleans, scopes -/

theorem rateOfByte_eq_some_iff {b : Byte} {r : Rate} : rateOfByte b = some r ↔ b = rateByte r := by
  constructor
  · intro h
    apply BitVec.eq_of_toNat_eq
    unfold rateOfByte at h
    split at h <;> cases h <;> assumption
  · rintro rfl
    cases r <;> rfl

@[simp] theorem decodeRateOperand_rateByte (r : Rate) : decodeRateOperand (rateByte r) = .ok r := by
  cases r <;> rfl

theorem decodeRateOperand_eq_ok_iff {b : Byte} {r : Rate} :
    decodeRateOperand b = .ok r ↔ b = rateByte r := by
  rw [← rateOfByte_eq_some_iff, decodeRateOperand]
  cases rateOfByte b <;> simp

@[simp] theorem decodeBoolOperand_boolByte (x : Bool) : decodeBoolOperand (boolByte x) = .ok x := by
  cases x <;> rfl

theorem decodeBoolOperand_eq_ok_iff {b : Byte} {x : Bool} :
    decodeBoolOperand b = .ok x ↔ b = boolByte x := by
  constructor
  · intro h
    unfold decodeBoolOperand at h
    split_ifs at h <;> cases h <;> assumption
  · rintro rfl
    exact decodeBoolOperand_boolByte x

@[simp] theorem decodeScopeOperand_scopeByte (sc : ResetScope) : decodeScopeOperand (scopeByte sc) = .ok sc := by
  cases sc <;> rfl

theorem decodeScopeOperand_eq_ok_iff {b : Byte} {sc : ResetScope} :
    decodeScopeOperand b = .ok sc ↔ b = scopeByte sc := by
  constructor
  · intro h
    unfold decodeScopeOperand at h
    split_ifs at h <;> cases h <;> assumption
  · rintro rfl
    exact decodeScopeOperand_scopeByte sc

/-! ### Position codes (30_encoding.md R74) -/

theorem positionByte_extract (b : Byte) : positionByte (b.extractLsb' 6 2) (b.extractLsb' 0 6) = b :=
  (BitVec.extractLsb'_append_extractLsb'_eq_extractLsb' rfl).trans BitVec.extractLsb'_eq_self

theorem positionByte_bits (op : BitVec 2) (i : BitVec 6) :
    (positionByte op i).extractLsb' 6 2 = op ∧ (positionByte op i).extractLsb' 0 6 = i :=
  ⟨BitVec.extractLsb'_append_eq_left, BitVec.extractLsb'_append_eq_right⟩

theorem positionByte_inj {op op' : BitVec 2} {i i' : BitVec 6} (h : positionByte op i = positionByte op' i') :
    op = op' ∧ i = i' := by
  obtain ⟨hop, hi⟩ := positionByte_bits op i
  obtain ⟨hop', hi'⟩ := positionByte_bits op' i'
  rw [h] at hop hi
  exact ⟨hop.symm.trans hop', hi.symm.trans hi'⟩

/-- Below bit index 63 the class is that of bits 7 and 6. -/
theorem positionOfByte_of_ne_63 (op : BitVec 2) {i : BitVec 6} (hi : i ≠ 63) :
    positionOfByte (positionByte op i) =
      if op = 0 then .readBit i else if op = 1 then .readComplement i
      else if op = 2 then .pruneSet i else .pruneClear i := by
  obtain ⟨hop, hidx⟩ := positionByte_bits op i
  have hne : positionByte op i ≠ 255 := fun h => hi (positionByte_inj (op' := 3) (i' := 63) h).2
  rw [positionOfByte, if_neg hne, hop, hidx, if_neg hi]

/-- At bit index 63 a code is a no-op, but for 255. -/
theorem positionOfByte_of_ne_3 {op : BitVec 2} (hop : op ≠ 3) :
    positionOfByte (positionByte op 63) = .noop op := by
  obtain ⟨hbits, hidx⟩ := positionByte_bits op 63
  have hne : positionByte op 63 ≠ 255 := fun h => hop (positionByte_inj (op' := 3) (i' := 63) h).1
  rw [positionOfByte, if_neg hne, hbits, hidx, if_pos rfl]

/-- A position code is written back from its class. -/
theorem encode_positionOfByte (k : Codes) (b : Byte) :
    encode k (positionInstr (positionOfByte b)) = [b] := by
  have hback := positionByte_extract b
  unfold positionOfByte
  split_ifs with h255 h63 h0 h1 h2
  · rw [h255]
    rfl
  · rw [h63] at hback
    exact congrArg ([·]) hback
  · rw [h0] at hback
    exact congrArg ([·]) hback
  · rw [h1] at hback
    exact congrArg ([·]) hback
  · rw [h2] at hback
    exact congrArg ([·]) hback
  · have h3 : b.extractLsb' 6 2 = 3 := by
      generalize b.extractLsb' 6 2 = op at h0 h1 h2
      bv_omega
    rw [h3] at hback
    exact congrArg ([·]) hback

theorem positionInstr_layer (code : PositionCode) : (positionInstr code).layer = .position := by
  cases code <;> rfl

/-! ### Packet fields: what is split off is what the packet's length admits -/

/-- Four bytes hold no serial number (30_encoding.md R66). -/
theorem splitPing_of_length_le : ∀ {body : List Byte}, body.length ≤ 4 → splitPing body = (none, none, body)
  | [], _ | [_], _ | [_, _], _ | [_, _, _], _ | [_, _, _, _], _ => rfl
  | _ :: _ :: _ :: _ :: _ :: _, h => by simp only [List.length_cons] at h; omega

/-- From the fifth byte on a serial number is there, and no decoder id before the ninth (30_encoding.md
R66). -/
theorem splitPing_of_serial {sn : U32} : ∀ {tail : List Byte}, 1 ≤ tail.length → tail.length ≤ 4 →
    splitPing (be32Bytes sn ++ tail) = (some sn, none, tail)
  | [_], _, _ | [_, _], _, _ | [_, _, _], _, _ | [_, _, _, _], _, _ => by
    simp [be32Bytes, splitPing, be32_extract]
  | [], h, _ => by simp at h
  | _ :: _ :: _ :: _ :: _ :: _, _, h => by simp only [List.length_cons] at h; omega

/-- From the ninth byte on both qualifiers are there (30_encoding.md R66). -/
theorem splitPing_of_both {sn did : U32} : ∀ {tail : List Byte}, 1 ≤ tail.length →
    splitPing (be32Bytes sn ++ (be32Bytes did ++ tail)) = (some sn, some did, tail)
  | _ :: _, _ => by simp [be32Bytes, splitPing, be32_extract]
  | [], h => by simp at h

/-- A Ping whose fields agree with its length is split into them (30_encoding.md R66). -/
theorem splitPing_of_fieldsOk {sn did : Option U32} {tail : List Byte} (h : pingFieldsOk sn did tail = true) :
    splitPing (optionBytes be32Bytes sn ++ (optionBytes be32Bytes did ++ tail)) = (sn, did, tail) := by
  cases sn <;> cases did <;> simp [pingFieldsOk] at h
  case none.none => exact splitPing_of_length_le h
  case some.none => exact splitPing_of_serial h.1 h.2
  case some.some => exact splitPing_of_both h

/-- Nothing of a Ping is lost by splitting it. -/
theorem splitPing_join (body : List Byte) :
    optionBytes be32Bytes (splitPing body).1 ++
      (optionBytes be32Bytes (splitPing body).2.1 ++ (splitPing body).2.2) = body := by
  unfold splitPing
  split <;> simp [optionBytes, be32Bytes_be32]

/-- The one-byte field (30_encoding.md R67, R68). -/
theorem splitByte_of_fieldOk {x : Option Byte} {tail : List Byte} (h : byteFieldOk x tail = true) :
    splitByte (x.toList ++ tail) = (x, tail) := by
  match x, tail with
  | none, [] | none, [_] | some _, _ :: _ => rfl
  | none, _ :: _ :: _ => simp [byteFieldOk] at h
  | some _, [] => simp [byteFieldOk] at h

theorem splitByte_join (body : List Byte) : (splitByte body).1.toList ++ (splitByte body).2 = body := by
  unfold splitByte
  split <;> rfl

/-- The fields of CvRead and CvWrite (30_encoding.md R69, R70). -/
theorem splitCv_of_fieldsOk {x : Option (U16 × Byte)} {tail : List Byte} (h : cvFieldsOk x tail = true) :
    splitCv (optionBytes cvBytes x ++ tail) = (x, tail) := by
  match x, tail with
  | none, [] | none, [_] | none, [_, _] | none, [_, _, _] => rfl
  | some _, _ :: _ => simp [optionBytes, cvBytes, be16Bytes, splitCv, be16_extract]
  | none, _ :: _ :: _ :: _ :: _ =>
    simp only [cvFieldsOk, List.length_cons, decide_eq_true_eq] at h
    omega
  | some _, [] => simp [cvFieldsOk] at h

theorem splitCv_join (body : List Byte) : optionBytes cvBytes (splitCv body).1 ++ (splitCv body).2 = body := by
  unfold splitCv
  split <;> simp [optionBytes, cvBytes, be16Bytes_be16]

end Sys2Proof.Machine
end

section
/-!
PROOF. The decoder of each layer and the encoder are inverse to each other (30_encoding.md). For the layers
whose every accepted encoding is that of a well-formed instruction this is one equivalence.
-/

namespace Sys2Proof.Machine

/-! ### The operands of an operation (the model's bytes, log 1) -/

section

variable {p : List Byte} {i : Instr}

/-- A sequence of two decodings succeeds when both do. -/
theorem bind_eq_ok_iff {ε α β : Type} {x : Except ε α} {f : α → Except ε β} {b : β} :
    (x >>= f) = .ok b ↔ ∃ a, x = .ok a ∧ f a = .ok b := by
  cases x <;> simp [bind, Except.bind]

theorem decodeReset_eq_ok_iff : decodeReset p = .ok i ↔ ∃ sc a, p = resetBytes sc a ∧ i = .reset sc a := by
  constructor
  · intro h
    unfold decodeReset at h
    split at h
    · simp only [bind_eq_ok_iff, decodeScopeOperand_eq_ok_iff, decodeRateOperand_eq_ok_iff,
        decodeBoolOperand_eq_ok_iff] at h
      obtain ⟨sc, rfl, r, rfl, tr, rfl, iv, rfl, h⟩ := h
      cases h
      exact ⟨_, _, by simp [resetBytes, be32Bytes_be32], rfl⟩
    · cases h
  · rintro ⟨sc, a, rfl, rfl⟩
    simp only [resetBytes, be32Bytes, List.cons_append, List.nil_append, decodeReset, be32_extract,
      decodeScopeOperand_scopeByte, decodeRateOperand_rateByte, decodeBoolOperand_boolByte]
    rfl

theorem decodeTimeRate_eq_ok_iff {mk : U32 → Rate → Instr} :
    decodeTimeRate mk p = .ok i ↔ ∃ t r, p = be32Bytes t ++ [rateByte r] ∧ i = mk t r := by
  constructor
  · intro h
    unfold decodeTimeRate at h
    split at h
    · simp only [bind_eq_ok_iff, decodeRateOperand_eq_ok_iff] at h
      obtain ⟨r, rfl, h⟩ := h
      cases h
      exact ⟨_, _, by simp [be32Bytes_be32], rfl⟩
    · cases h
  · rintro ⟨t, r, rfl, rfl⟩
    simp only [be32Bytes, List.cons_append, List.nil_append, decodeTimeRate, be32_extract,
      decodeRateOperand_rateByte]
    rfl

theorem decodeByteByte_eq_ok_iff {mk : Byte → Byte → Instr} :
    decodeByteByte mk p = .ok i ↔ ∃ a b, p = [a, b] ∧ i = mk a b := by
  constructor
  · intro h
    unfold decodeByteByte at h
    split at h <;> cases h
    exact ⟨_, _, rfl, rfl⟩
  · rintro ⟨a, b, rfl, rfl⟩
    rfl

theorem decodeWordByte_eq_ok_iff {mk : U32 → Byte → Instr} :
    decodeWordByte mk p = .ok i ↔ ∃ w b, p = be32Bytes w ++ [b] ∧ i = mk w b := by
  constructor
  · intro h
    unfold decodeWordByte at h
    split at h <;> cases h
    exact ⟨_, _, by simp [be32Bytes_be32], rfl⟩
  · rintro ⟨w, b, rfl, rfl⟩
    simp [be32Bytes, decodeWordByte, be32_extract]

theorem decodeWordOperand_eq_ok_iff {mk : U32 → Instr} :
    decodeWordOperand mk p = .ok i ↔ ∃ w, p = be32Bytes w ∧ i = mk w := by
  constructor
  · intro h
    unfold decodeWordOperand at h
    split at h <;> cases h
    exact ⟨_, by simp [be32Bytes_be32], rfl⟩
  · rintro ⟨w, rfl, rfl⟩
    simp [be32Bytes, decodeWordOperand, be32_extract]

theorem decodeByteOperand_eq_ok_iff {mk : Byte → Instr} :
    decodeByteOperand mk p = .ok i ↔ ∃ a, p = [a] ∧ i = mk a := by
  constructor
  · intro h
    unfold decodeByteOperand at h
    split at h <;> cases h
    exact ⟨_, rfl, rfl⟩
  · rintro ⟨a, rfl, rfl⟩
    rfl

theorem decodeNoOperand_eq_ok_iff {j : Instr} : decodeNoOperand j p = .ok i ↔ p = [] ∧ i = j := by
  constructor
  · intro h
    unfold decodeNoOperand at h
    split at h <;> cases h
    exact ⟨rfl, rfl⟩
  · rintro ⟨rfl, rfl⟩
    rfl

theorem decodeTxInit_eq_ok_iff : decodeTxInit p = .ok i ↔
    ∃ c : TxConfig, p = [c.rate, c.numPreamble, c.numAckreq, boolByte c.invert] ∧ i = .txInit c := by
  constructor
  · intro h
    unfold decodeTxInit at h
    split at h
    · simp only [bind_eq_ok_iff, decodeBoolOperand_eq_ok_iff] at h
      obtain ⟨iv, rfl, h⟩ := h
      cases h
      exact ⟨_, rfl, rfl⟩
    · cases h
  · rintro ⟨c, rfl, rfl⟩
    simp only [decodeTxInit, decodeBoolOperand_boolByte]
    rfl

/-! ### Operations -/

/-- Bytes decode to an operation exactly when they are its encoding. -/
theorem decodeOperation_eq_ok_iff (k : Codes) :
    decodeOperation p = .ok i ↔ i.layer = .operation ∧ encode k i = p := by
  constructor
  · intro h
    unfold decodeOperation at h
    split at h
    · cases h
    · next op args =>
      -- The number of the operation is the byte in front.
      have written {n : Nat} (hn : op.toNat = n)
          (h : i.layer = .operation ∧ encode k i = BitVec.ofNat 8 n :: args) :
          i.layer = .operation ∧ encode k i = op :: args := by
        rwa [← hn, BitVec.ofNat_toNat, BitVec.setWidth_eq] at h
      split at h
      · obtain ⟨sc, a, rfl, rfl⟩ := decodeReset_eq_ok_iff.1 h
        exact written ‹op.toNat = 0› ⟨rfl, rfl⟩
      · obtain ⟨t, r, rfl, rfl⟩ := decodeTimeRate_eq_ok_iff.1 h
        exact written ‹op.toNat = 1› ⟨rfl, rfl⟩
      · obtain ⟨t, r, rfl, rfl⟩ := decodeTimeRate_eq_ok_iff.1 h
        exact written ‹op.toNat = 2› ⟨rfl, rfl⟩
      · obtain ⟨c, b, rfl, rfl⟩ := decodeByteByte_eq_ok_iff.1 h
        exact written ‹op.toNat = 3› ⟨rfl, rfl⟩
      · obtain ⟨c, b, rfl, rfl⟩ := decodeWordByte_eq_ok_iff.1 h
        exact written ‹op.toNat = 4› ⟨rfl, rfl⟩
      · obtain ⟨c, rfl, rfl⟩ := decodeWordOperand_eq_ok_iff.1 h
        exact written ‹op.toNat = 5› ⟨rfl, rfl⟩
      · obtain ⟨t, rfl, rfl⟩ := decodeWordOperand_eq_ok_iff.1 h
        exact written ‹op.toNat = 6› ⟨rfl, rfl⟩
      · obtain ⟨rfl, rfl⟩ := decodeNoOperand_eq_ok_iff.1 h
        exact written ‹op.toNat = 7› ⟨rfl, rfl⟩
      · obtain ⟨rfl, rfl⟩ := decodeNoOperand_eq_ok_iff.1 h
        exact written ‹op.toNat = 8› ⟨rfl, rfl⟩
      · obtain ⟨pos, rfl, rfl⟩ := decodeByteOperand_eq_ok_iff.1 h
        exact written ‹op.toNat = 9› ⟨rfl, rfl⟩
      · obtain ⟨idx, val, rfl, rfl⟩ := decodeWordByte_eq_ok_iff.1 h
        exact written ‹op.toNat = 10› ⟨rfl, rfl⟩
      · obtain ⟨c, rfl, rfl⟩ := decodeTxInit_eq_ok_iff.1 h
        exact written ‹op.toNat = 11› ⟨rfl, rfl⟩
      · obtain ⟨r, rfl, rfl⟩ := decodeByteOperand_eq_ok_iff.1 h
        exact written ‹op.toNat = 12› ⟨rfl, rfl⟩
      · cases h
        exact written ‹op.toNat = 13› ⟨rfl, rfl⟩
      · obtain ⟨rfl, rfl⟩ := decodeNoOperand_eq_ok_iff.1 h
        exact written ‹op.toNat = 14› ⟨rfl, rfl⟩
      · cases h
  · rintro ⟨hl, rfl⟩
    cases i with
    | reset sc a => exact decodeReset_eq_ok_iff.2 ⟨sc, a, rfl, rfl⟩
    | classify t r | ackDuration t r => exact decodeTimeRate_eq_ok_iff.2 ⟨t, r, rfl, rfl⟩
    | crc32Next w b | entryWrite w b => exact decodeWordByte_eq_ok_iff.2 ⟨w, b, rfl, rfl⟩
    | crc32Value w | rxReceive w => exact decodeWordOperand_eq_ok_iff.2 ⟨w, rfl, rfl⟩
    | txInit c => exact decodeTxInit_eq_ok_iff.2 ⟨c, rfl, rfl⟩
    | crc8Next _ _ | rxExecute | rxActive | arbRespond _ | txSetTransferRate _ | txPacket _ | txTransmit =>
      rfl
    | _ => simp [Instr.layer] at hl

/-! ### Edges, position codes, rate codes -/

theorem decodeEdge_eq_ok_iff {tm : Timing} {r : Rate} :
    decodeEdge tm r p = .ok i ↔ ∃ t, p = be32Bytes t ∧ i = symbolInstr t (classify tm t r) := by
  constructor
  · intro h
    unfold decodeEdge at h
    split at h <;> cases h
    exact ⟨_, by simp [be32Bytes_be32], rfl⟩
  · rintro ⟨t, rfl, rfl⟩
    simp [be32Bytes, decodeEdge, be32_extract]

theorem encode_symbolInstr (k : Codes) (t : U32) (sym : Symbol) :
    encode k (symbolInstr t sym) = be32Bytes t ∧ (symbolInstr t sym).layer = .edge := by
  cases sym <;> exact ⟨rfl, rfl⟩

/-- An edge is well formed when its time classifies as its symbol (30_encoding.md R60). -/
theorem wellFormed_edge {k : Params} {r : Rate} (hl : i.layer = .edge) (h : i.wellFormed k r = true) :
    ∃ t, i = symbolInstr t (classify k.timing t r) := by
  cases i with
  | symZero t | symOne t | symAckreq t | symInvalid t => exact ⟨t, by rw [eq_of_beq h]; rfl⟩
  | _ => simp [Instr.layer] at hl

theorem decodePosition_eq_ok_iff :
    decodePosition p = .ok i ↔ ∃ b, p = [b] ∧ i = positionInstr (positionOfByte b) := by
  constructor
  · intro h
    unfold decodePosition at h
    split at h <;> cases h
    exact ⟨_, rfl, rfl⟩
  · rintro ⟨b, rfl, rfl⟩
    rfl

/-- A well-formed position code has a byte of its class: no bit index 63, no no-op 255 (30_encoding.md
R74). -/
theorem wellFormed_position {k : Params} {r : Rate} (hl : i.layer = .position)
    (h : i.wellFormed k r = true) :
    ∃ b, encode k.codes i = [b] ∧ i = positionInstr (positionOfByte b) := by
  cases i with
  | posReadBit j | posReadComplement j | posPruneSet j | posPruneClear j =>
    refine ⟨_, rfl, ?_⟩
    rw [positionOfByte_of_ne_63 _ (bne_iff_ne.1 h)]
    rfl
  | posNoop op => exact ⟨_, rfl, by rw [positionOfByte_of_ne_3 (bne_iff_ne.1 h)]; rfl⟩
  | posNewRound => exact ⟨_, rfl, rfl⟩
  | _ => simp [Instr.layer] at hl

theorem decodeRate_eq_ok_iff : decodeRate p = .ok i ↔ ∃ r, p = [rateByte r] ∧ i = rateInstr r := by
  constructor
  · intro h
    unfold decodeRate at h
    split at h
    · next b =>
      cases hr : decodeRateOperand b with
      | error e => simp [hr, Except.map] at h
      | ok r =>
        rw [hr] at h
        cases h
        exact ⟨r, by rw [decodeRateOperand_eq_ok_iff.1 hr], rfl⟩
    · cases h
  · rintro ⟨r, rfl, rfl⟩
    simp [decodeRate, Except.map]

theorem encode_rateInstr (k : Codes) (r : Rate) :
    encode k (rateInstr r) = [rateByte r] ∧ (rateInstr r).layer = .rate := by
  cases r <;> exact ⟨rfl, rfl⟩

theorem eq_rateInstr_of_layer (hl : i.layer = .rate) : ∃ r, i = rateInstr r := by
  cases i with
  | rateFallback => exact ⟨.fallback, rfl⟩
  | rateFast => exact ⟨.fast, rfl⟩
  | rateMedium => exact ⟨.medium, rfl⟩
  | rateSlow => exact ⟨.slow, rfl⟩
  | rateDefault => exact ⟨.default, rfl⟩
  | _ => simp [Instr.layer] at hl

/-! ### Packets -/

theorem mem_allCommands (c : Command) : c ∈ allCommands := by
  cases c <;> decide

/-- A code that names a command is that command's. -/
theorem commandCode_of_commandOfCode {k : Codes} {w : U32} {c : Command} (h : commandOfCode k w = some c) :
    commandCode k c = w :=
  eq_of_beq (List.find?_some (p := fun c => commandCode k c == w) h)

/-- With distinct codes every command is found by its code (00_scope.md R6, condition 3). -/
theorem commandOfCode_commandCode {k : Codes} (hk : codesDistinct k = true) (c : Command) :
    commandOfCode k (commandCode k c) = some c := by
  have hinj := List.inj_on_of_nodup_map (of_decide_eq_true hk)
  cases h : commandOfCode k (commandCode k c) with
  | none => simpa using List.find?_eq_none.1 h c (mem_allCommands c)
  | some c' =>
    rw [hinj (mem_allCommands c') (mem_allCommands c) (commandCode_of_commandOfCode h)]

theorem decodePacket_eq_ok_iff {k : Codes} : decodePacket k p = .ok i ↔
    ∃ w body, p = be32Bytes w ++ body ∧ i = decodeCommand w body (commandOfCode k w) := by
  constructor
  · intro h
    unfold decodePacket at h
    split at h <;> cases h
    exact ⟨_, _, by simp [be32Bytes_be32], rfl⟩
  · rintro ⟨w, body, rfl, rfl⟩
    simp [be32Bytes, decodePacket, be32_extract]

/-- What a command's bytes decode to is written back as the command's code and these bytes. -/
theorem encode_decodeCommand_some (k : Codes) (c : Command) (body : List Byte) :
    encode k (decodeCommand (commandCode k c) body (some c)) = be32Bytes (commandCode k c) ++ body := by
  cases c with
  | ping => simp only [decodeCommand, encode, List.append_assoc, splitPing_join, commandCode]
  | configTransferRate | binarySearch =>
    simp only [decodeCommand, encode, List.append_assoc, splitByte_join, commandCode]
  | cvRead | cvWrite => simp only [decodeCommand, encode, List.append_assoc, splitCv_join, commandCode]
  | _ => rfl

theorem encode_decodeCommand (k : Codes) (w : U32) (body : List Byte) :
    encode k (decodeCommand w body (commandOfCode k w)) = be32Bytes w ++ body := by
  cases h : commandOfCode k w with
  | none => rfl
  | some c =>
    rw [← commandCode_of_commandOfCode h]
    exact encode_decodeCommand_some k c body

/-- With distinct codes a packet of a listed command decodes by that command. -/
theorem decodePacket_commandCode {k : Codes} (hk : codesDistinct k = true) (c : Command)
    (body : List Byte) : decodePacket k (be32Bytes (commandCode k c) ++ body)
      = .ok (decodeCommand (commandCode k c) body (some c)) :=
  decodePacket_eq_ok_iff.2 ⟨_, _, rfl, by rw [commandOfCode_commandCode hk]⟩

/-- A well-formed packet decodes from its encoding (30_encoding.md R63 to R72). -/
theorem decodePacket_encode {k : Params} {r : Rate} (hk : codesDistinct k.codes = true)
    (hl : i.layer = .packet) (h : i.wellFormed k r = true) :
    decodePacket k.codes (encode k.codes i) = .ok i := by
  cases i with
  | ping sn did tail =>
    obtain ⟨hfields, -⟩ := Bool.and_eq_true_iff.1 h
    rw [encode, List.append_assoc, List.append_assoc]
    exact (decodePacket_commandCode hk .ping _).trans (by rw [decodeCommand, splitPing_of_fieldsOk hfields])
  | configTransferRate x tail =>
    obtain ⟨hfields, -⟩ := Bool.and_eq_true_iff.1 h
    rw [encode, List.append_assoc]
    exact (decodePacket_commandCode hk .configTransferRate _).trans
      (by rw [decodeCommand, splitByte_of_fieldOk hfields])
  | binarySearch x tail =>
    obtain ⟨hfields, -⟩ := Bool.and_eq_true_iff.1 h
    rw [encode, List.append_assoc]
    exact (decodePacket_commandCode hk .binarySearch _).trans
      (by rw [decodeCommand, splitByte_of_fieldOk hfields])
  | cvRead x tail =>
    obtain ⟨hfields, -⟩ := Bool.and_eq_true_iff.1 h
    rw [encode, List.append_assoc]
    exact (decodePacket_commandCode hk .cvRead _).trans (by rw [decodeCommand, splitCv_of_fieldsOk hfields])
  | cvWrite x tail =>
    obtain ⟨hfields, -⟩ := Bool.and_eq_true_iff.1 h
    rw [encode, List.append_assoc]
    exact (decodePacket_commandCode hk .cvWrite _).trans (by rw [decodeCommand, splitCv_of_fieldsOk hfields])
  | busy body => exact decodePacket_commandCode hk .busy body
  | zsuSalsa20Iv body => exact decodePacket_commandCode hk .zsuSalsa20Iv body
  | zsuErase body => exact decodePacket_commandCode hk .zsuErase body
  | zsuUpdate body => exact decodePacket_commandCode hk .zsuUpdate body
  | zsuCrc32Start body => exact decodePacket_commandCode hk .zsuCrc32Start body
  | zsuCrc32Result body => exact decodePacket_commandCode hk .zsuCrc32Result body
  | zsuCrc32ResultExit body => exact decodePacket_commandCode hk .zsuCrc32ResultExit body
  | zppValidQuery body => exact decodePacket_commandCode hk .zppValidQuery body
  | zppLcDcQuery body => exact decodePacket_commandCode hk .zppLcDcQuery body
  | zppErase body => exact decodePacket_commandCode hk .zppErase body
  | zppUpdate body => exact decodePacket_commandCode hk .zppUpdate body
  | zppUpdateEnd body => exact decodePacket_commandCode hk .zppUpdateEnd body
  | zppExit body => exact decodePacket_commandCode hk .zppExit body
  | zppExitReset body => exact decodePacket_commandCode hk .zppExitReset body
  | unlisted cmd body =>
    obtain ⟨hnone, -⟩ := Bool.and_eq_true_iff.1 h
    exact decodePacket_eq_ok_iff.2 ⟨cmd, body, rfl, by rw [Option.isNone_iff_eq_none.1 hnone]; rfl⟩
  | _ => simp [Instr.layer] at hl

end

/-! ### The statements -/

/-- Settles O1: layer by layer. -/
theorem decodeInvertsEncode : Obligations.DecodeInvertsEncode := by
  intro k r i hk hwf
  cases hl : i.layer with
  | operation => exact (decodeOperation_eq_ok_iff k.codes).2 ⟨hl, rfl⟩
  | edge =>
    obtain ⟨t, rfl⟩ := wellFormed_edge hl hwf
    exact decodeEdge_eq_ok_iff.2 ⟨t, (encode_symbolInstr _ _ _).1, rfl⟩
  | packet => exact decodePacket_encode hk hl hwf
  | position => exact decodePosition_eq_ok_iff.2 (wellFormed_position hl hwf)
  | rate =>
    obtain ⟨x, rfl⟩ := eq_rateInstr_of_layer hl
    exact decodeRate_eq_ok_iff.2 ⟨x, (encode_rateInstr _ x).1, rfl⟩

/-- Settles O2: an accepted encoding is of the form that its layer's decoder reads, and that form is
written back. -/
theorem encodeInvertsDecode : Obligations.EncodeInvertsDecode := by
  intro k r l p i h
  cases l with
  | operation => exact ((decodeOperation_eq_ok_iff k.codes).1 h).symm
  | edge =>
    obtain ⟨t, rfl, rfl⟩ := decodeEdge_eq_ok_iff.1 h
    exact encode_symbolInstr _ _ _
  | packet =>
    obtain ⟨w, body, rfl, rfl⟩ := decodePacket_eq_ok_iff.1 h
    exact ⟨encode_decodeCommand _ _ _, decodeCommand_layer _ _ _⟩
  | position =>
    obtain ⟨b, rfl, rfl⟩ := decodePosition_eq_ok_iff.1 h
    exact ⟨encode_positionOfByte _ b, positionInstr_layer _⟩
  | rate =>
    obtain ⟨x, rfl, rfl⟩ := decodeRate_eq_ok_iff.1 h
    exact encode_rateInstr _ x

/-- Settles O3: each word is evaluated by its layer's decoder. -/
theorem writtenOutWordsDecode : Obligations.WrittenOutWordsDecode :=
  ⟨rfl, rfl, rfl, rfl, rfl⟩

end Sys2Proof.Machine
end

section
/-!
PROOF. Rate and position codes as instructions (30_encoding.md R73, R74): each is the request, respectively
the response, that its code names.
-/

namespace Sys2Proof.Machine

/-- A rate code runs as the request for its rate (log 10). -/
theorem exec_rateInstr (r : Rate) (s : State) :
    exec (rateInstr r) s = .next ((s.requestRate r).done .none) := by
  cases r <;> rfl

/-- A position code runs as the response to its class (45_arbitration.md R211). -/
theorem exec_positionInstr (code : PositionCode) (s : State) :
    exec (positionInstr code) s = .next (s.respond code) := by
  cases code <;> rfl

/-- Settles O13: a request is rejected below the register and adopted otherwise. -/
theorem rateCodesRequestTheirRate : Obligations.RateCodesRequestTheirRate := by
  intro s i r hmem
  obtain rfl : i = rateInstr r := by
    simp only [List.mem_cons, Prod.mk.injEq, List.not_mem_nil, or_false] at hmem
    rcases hmem with ⟨rfl, rfl⟩ | ⟨rfl, rfl⟩ | ⟨rfl, rfl⟩ | ⟨rfl, rfl⟩ | ⟨rfl, rfl⟩ <;> rfl
  rw [exec_rateInstr]
  rcases State.requestRate_cases r s with ⟨hlt, heq⟩ | ⟨hle, heq⟩ <;> rw [heq]
  · exact ⟨fun _ => rfl, fun hle => absurd hlt hle.not_gt⟩
  · exact ⟨fun hlt => absurd hlt hle.not_gt, fun _ => rfl⟩

/-- A position code runs by the two values that its class gives (45_arbitration.md R211). -/
theorem exec_positionInstr_of_eq {code : PositionCode} {s : State} {ignore answer : Bool}
    (hignore : s.rx.arbIgnoreAfter code = ignore) (hanswer : s.rx.arbAnswer code = answer) :
    exec (positionInstr code) s =
      .next { s with rx := { s.rx with arbIgnore := ignore }, result := .bool answer } := by
  rw [exec_positionInstr, State.respond_eq, hignore, hanswer]

/-- Settles O39: the answer and `arb_ignore` of each class, with the flag put in where they depend on it. -/
theorem positionClassesAnswer : Obligations.PositionClassesAnswer := by
  intro s j op _ _ bit answer
  refine ⟨rfl, rfl, fun silent => ?_, fun heard => ?_⟩
  · simp only [List.forall_mem_cons, List.not_mem_nil, false_imp_iff, implies_true, and_true]
    exact ⟨exec_positionInstr_of_eq (code := .readBit j) silent (congrArg (!· && bit) silent),
      exec_positionInstr_of_eq (code := .readComplement j) silent (congrArg (!· && !bit) silent),
      exec_positionInstr_of_eq (code := .pruneSet j) (congrArg (· || bit) silent) rfl,
      exec_positionInstr_of_eq (code := .pruneClear j) (congrArg (· || !bit) silent) rfl⟩
  · exact ⟨exec_positionInstr_of_eq (code := .readBit j) heard (congrArg (!· && bit) heard),
      exec_positionInstr_of_eq (code := .readComplement j) heard (congrArg (!· && !bit) heard),
      exec_positionInstr_of_eq (code := .pruneSet j) (congrArg (· || bit) heard) rfl,
      exec_positionInstr_of_eq (code := .pruneClear j) (congrArg (· || !bit) heard) rfl⟩

end Sys2Proof.Machine
end

section
/-!
PROOF. The exact unlock sequence, pair by pair: every proper beginning of it is kept, the last pair calls the
hook and clears the sequence (46_entry_sequence.md R223 to R227).
-/

namespace Sys2Proof.Machine

/-- An instruction that has a next state is followed by the rest of its run. -/
theorem execAll_cons_of_next {i : Instr} {rest : List Instr} {s t : State} (h : exec i s = .next t) :
    execAll (i :: rest) s = execAll rest t := by
  rw [execAll, h]

/-- The state after a detector's operation that leaves the sequence `buf` and makes the calls `cs`. -/
def State.entered (s : State) (buf : List EntryPair) (cs : List HostCall) : State :=
  { s with es := { s.es with buf := buf }, trace := s.trace ++ cs, result := .none }

theorem exec_entryWrite {s : State} {p : EntryPair} {buf : List EntryPair} {cs : List HostCall}
    (h : s.es.write s.params p = (buf, cs)) :
    exec (.entryWrite p.index p.value) s = .next (s.entered buf cs) := by
  change execEntryWrite p.index p.value s = _
  rw [execEntryWrite, h]
  rfl

section

variable {k : Params} {id : U32} {first : Byte} {l : List EntryPair} {hook : List HostCall}

/-- A comparison of a beginning of the target: the hook at its end, the sequence kept before
(46_entry_sequence.md R223 to R225). -/
theorem entryMatch_of_prefix {buf : List EntryPair} (htarget : entryTarget k id first = some (l, hook))
    (hfirst : l.head?.map EntryPair.value = some first) (hne : buf ≠ []) (hbuf : buf <+: l) :
    entryMatch k id buf = if buf.length = l.length then ([], hook) else (buf, []) := by
  have hhead : (buf.head?.bind fun p => entryTarget k id p.value) = some (l, hook) := by
    obtain ⟨rest, rfl⟩ := hbuf
    cases buf with
    | nil => exact absurd rfl hne
    | cons p tail =>
      have hp : p.value = first := by simpa using hfirst
      simpa [hp] using htarget
  simp only [entryMatch, hhead, ← List.prefix_iff_eq_take.1 hbuf, ne_eq, not_true_eq_false, if_false]

/-- Neighbours in a list are neighbours in its pairing with its tail. -/
theorem mem_zip_tail {α : Type} (front : List α) (a b : α) (rest : List α) :
    (a, b) ∈ (front ++ a :: b :: rest).zip (front ++ a :: b :: rest).tail := by
  induction front with
  | nil => simp
  | cons x xs ih => cases xs <;> simp_all

/-- The index of a pair inside a well-formed sequence is relevant and differs from that of the pair before
it (00_scope.md R6, condition 4). -/
theorem sequenceWellFormed_split {pre rest : List EntryPair} {p : EntryPair}
    (hwf : sequenceWellFormed first (pre ++ p :: rest) = true) :
    relevantIndex p.index = true ∧ pre.getLast?.map EntryPair.index ≠ some p.index := by
  simp only [sequenceWellFormed, Bool.and_eq_true, List.all_eq_true] at hwf
  obtain ⟨⟨-, hrelevant⟩, hdiffer⟩ := hwf
  refine ⟨hrelevant p (by simp), fun hlast => ?_⟩
  obtain ⟨q, hq, hidx⟩ := Option.map_eq_some_iff.1 hlast
  obtain ⟨front, rfl⟩ := List.getLast?_eq_some_iff.1 hq
  have hne := hdiffer (q, p) (by simpa using mem_zip_tail front q p rest)
  simp [hidx] at hne

/-- From any proper beginning of the target, the pairs that are left call the hook once, at the last of
them, and clear the sequence. -/
theorem execAll_entryWrite_rest (hwf : sequenceWellFormed first l = true) {rest : List EntryPair}
    (hrest : rest ≠ []) {pre : List EntryPair} {s : State}
    (htarget : entryTarget s.params s.es.decoderId first = some (l, hook))
    (hsplit : pre ++ rest = l) (hbuf : s.es.buf = pre) :
    execAll (rest.map fun x => .entryWrite x.index x.value) s = .next (s.entered [] hook) := by
  induction rest generalizing pre s with
  | nil => exact absurd rfl hrest
  | cons p tail ih =>
    obtain ⟨hrelevant, hlast⟩ := sequenceWellFormed_split (hsplit ▸ hwf)
    have hfirst : l.head?.map EntryPair.value = some first := by
      simp only [sequenceWellFormed, Bool.and_eq_true, decide_eq_true_eq] at hwf
      obtain ⟨⟨hfirst, -⟩, -⟩ := hwf
      exact hfirst
    have hwrite : s.es.write s.params p =
        if (pre ++ [p]).length = l.length then ([], hook) else (pre ++ [p], []) := by
      rw [← entryMatch_of_prefix htarget hfirst (by simp) ⟨tail, by simpa using hsplit⟩,
        EntryDetector.write, hbuf, hrelevant, if_neg (by decide), if_neg hlast]
    cases tail with
    | nil =>
      rw [if_pos (by simp [← hsplit])] at hwrite
      exact execAll_cons_of_next (exec_entryWrite hwrite)
    | cons q tail =>
      rw [if_neg (by simp [← hsplit])] at hwrite
      rw [List.map_cons, execAll_cons_of_next (exec_entryWrite hwrite),
        ih (List.cons_ne_nil q tail) (pre := pre ++ [p]) (s := s.entered (pre ++ [p]) []) htarget
          (by simpa using hsplit) rfl]
      simp [State.entered]

/-- From an empty detector the whole target calls its hook once and leaves the detector empty. -/
theorem execAll_entryWrite_target (hwf : sequenceWellFormed first l = true) {s : State}
    (hempty : s.es.buf = [])
    (htarget : entryTarget s.params s.es.decoderId first = some (l, hook)) :
    execAll (l.map fun x => .entryWrite x.index x.value) s =
      .next { s with trace := s.trace ++ hook, result := .none } := by
  have hne : l ≠ [] := by
    rintro rfl
    simp [sequenceWellFormed] at hwf
  rw [execAll_entryWrite_rest hwf hne htarget (List.nil_append l) hempty, State.entered, ← hempty]

end

/-- The sequences that hold after reset are built in their shape (46_entry_sequence.md R226). -/
theorem reset_sequencesInShape : SequencesInShape State.reset.params where
  zpp := zppSequence_inShape _ _
  fw _ := fwSequence_inShape _ _
  fwFixed _ _ := fwSequence_agree _ _ _

/-- Settles O49: each of the two sequences is the target that its first value selects. -/
theorem unlockSequenceCallsItsHookOnce : Obligations.UnlockSequenceCallsItsHookOnce :=
  ⟨fun _ hempty => ⟨fun hwf => execAll_entryWrite_target hwf hempty rfl,
    fun hwf => execAll_entryWrite_target hwf hempty rfl⟩, reset_sequencesInShape⟩

end Sys2Proof.Machine
end

section
/-!
PROOF. The classifier (40_timing_classifier.md): the windows as intervals of natural numbers, and the two
operations that read them.
-/

namespace Sys2Proof.Machine

/-! ### The windows -/

/-- The window test compares unsigned numbers (40_timing_classifier.md R105). -/
theorem inWindow_iff (lo hi x : U32) :
    inWindow lo hi x = true ↔ lo.toNat ≤ x.toNat ∧ x.toNat ≤ hi.toNat := by
  simp [inWindow, BitVec.le_def]

theorem inZero_iff (w : TimingRow) (t : U32) :
    inZero w t = true ↔ w.zeroMin.toNat ≤ t.toNat ∧ t.toNat ≤ w.zeroMax.toNat := inWindow_iff ..

theorem inOne_iff (w : TimingRow) (t : U32) :
    inOne w t = true ↔ w.oneMin.toNat ≤ t.toNat ∧ t.toNat ≤ w.oneMax.toNat := inWindow_iff ..

theorem inAckreq_iff (w : TimingRow) (t : U32) :
    inAckreq w t = true ↔ w.ackreqMin.toNat ≤ t.toNat ∧ t.toNat ≤ w.ackreqMax.toNat := inWindow_iff ..

/-! ### The operations -/

/-- `classify` writes its symbol as the result and nothing else. -/
theorem exec_classify (t : U32) (r : Rate) (s : State) :
    exec (.classify t r) s = .next { s with result := .symbol (classify s.params.timing t r) } := rfl

/-- `ack_duration` writes its duration as the result and nothing else. -/
theorem exec_ackDuration (t : U32) (r : Rate) (s : State) :
    exec (.ackDuration t r) s = .next { s with result := .word (ackDuration s.params.timing t r) } := rfl

/-- Settles O30: each outcome of the ordered test `classify_cases` meets the one clause whose premises it
satisfies and contradicts a premise of every other. -/
theorem classifyTestsWindowsInOrder : Obligations.ClassifyTestsWindowsInOrder := by
  intro s t r
  have hcases := classify_cases s.params.timing t r
  simp only [← Bool.not_eq_true, Bool.or_eq_true, inZero_iff, inOne_iff, inAckreq_iff] at hcases
  rw [exec_classify]
  obtain ⟨hzero, heq⟩ | ⟨hzero, hone, heq⟩ | ⟨hzero, hone, hack, heq⟩ | ⟨hzero, hone, hack, heq⟩ := hcases
    <;> rw [heq]
  · exact ⟨fun _ => rfl, fun h => absurd hzero h, fun h => absurd hzero h, fun h => absurd hzero h⟩
  · exact ⟨fun h => absurd h hzero, fun _ _ => rfl, fun _ h => absurd hone h, fun _ h => absurd hone h⟩
  · exact ⟨fun h => absurd h hzero, fun _ h => absurd h hone, fun _ _ _ => rfl,
      fun _ _ h => absurd hack h⟩
  · exact ⟨fun h => absurd h hzero, fun _ h => absurd h hone, fun _ _ h => absurd h hack,
      fun _ _ _ => rfl⟩

/-- Settles O31: the duration branches on the fallback row's ackreq window alone. -/
theorem ackDurationPrefersTheFallbackRow : Obligations.AckDurationPrefersTheFallbackRow := by
  intro s t r
  simp only [exec_ackDuration, ackDuration, ← inAckreq_iff]
  exact ⟨fun hin => by rw [if_pos hin], fun hout => by rw [if_neg hout]⟩

end Sys2Proof.Machine
end

section
/-!
PROOF. The two checksums (41_crc.md). A round of either is a shift exclusive-ored with a feedback that
depends on the leaving bit alone: the sum form, from which both are linear and lose no nonzero register.
-/

namespace Sys2Proof.Machine

/-! ### The feedback -/

/-- What a round exclusive-ors into the register: the constant `p` where the leaving bit is set. -/
def feedback {w : Nat} (p : BitVec w) (leaving : Bool) : BitVec w := if leaving then p else 0

@[simp] theorem feedback_false {w : Nat} (p : BitVec w) : feedback p false = 0 := rfl

@[simp] theorem feedback_true {w : Nat} (p : BitVec w) : feedback p true = p := rfl

theorem feedback_xor {w : Nat} (p : BitVec w) (x y : Bool) :
    feedback p (x ^^ y) = feedback p x ^^^ feedback p y := by
  cases x <;> cases y <;> simp

/-! ### Crc8 -/

theorem crc8Round_eq (c : Byte) : crc8Round c = feedback 0x8C (c.getLsbD 0) ^^^ c >>> 1 := by
  rw [crc8Round]
  cases c.getLsbD 0
  · simp
  · exact BitVec.xor_comm _ _

theorem crc8Round_xor (a b : Byte) : crc8Round (a ^^^ b) = crc8Round a ^^^ crc8Round b := by
  simp only [crc8Round_eq, BitVec.getLsbD_xor, feedback_xor, BitVec.ushiftRight_xor_distrib]
  ac_rfl

/-- The shift leaves bit 7 clear and the feedback constant sets it, so a round to zero had no feedback and
shifted out nothing. -/
theorem crc8Round_eq_zero_iff (c : Byte) : crc8Round c = 0 ↔ c = 0 := by
  refine ⟨fun h => ?_, by rintro rfl; rfl⟩
  cases hleaving : c.getLsbD 0 <;> rw [crc8Round_eq, hleaving] at h
  case true =>
    have htop := congrArg (·.getLsbD 7) h
    simp at htop
  case false =>
    refine BitVec.eq_of_getLsbD_eq fun i _ => ?_
    cases i with
    | zero => simpa using hleaving
    | succ j => simpa [Nat.add_comm] using congrArg (·.getLsbD j) h

theorem crc8Next_xor (a b x y : Byte) :
    crc8Next (a ^^^ b) (x ^^^ y) = crc8Next a x ^^^ crc8Next b y := by
  have hmix : a ^^^ b ^^^ (x ^^^ y) = a ^^^ x ^^^ (b ^^^ y) := by ac_rfl
  simp only [crc8Next, hmix, crc8Round_xor]

theorem crc8Next_eq_zero_iff (c b : Byte) : crc8Next c b = 0 ↔ c = b := by
  simp only [crc8Next, crc8Round_eq_zero_iff]
  exact BitVec.xor_eq_zero_iff

/-- Settles O35: the last byte's fold is zero only where the byte is the register before it. -/
theorem crcEightResidueIsZero : Obligations.CrcEightResidueIsZero := by
  intro p b
  rw [crc8Of_append_singleton, crc8Next_eq_zero_iff, eq_comm]

/-! ### One bit of "Crc32" -/

theorem crc32Bit_eq (c : U32) (bit : Bool) :
    crc32Bit c bit = feedback 0x04C11DB7 (c.getLsbD 31) ^^^ (c <<< 1 ||| (bit.toNat : U32)) := by
  have hbit : (if bit then 1#32 else 0#32) = (bit.toNat : U32) := by cases bit <;> rfl
  rw [crc32Bit, hbit]
  cases c.getLsbD 31
  · simp
  · exact BitVec.xor_comm _ _

theorem shiftLeft_one_or_eq_shiftConcat (c : U32) (bit : Bool) :
    c <<< 1 ||| (bit.toNat : U32) = c.shiftConcat bit := by
  ext i hi
  cases i <;> cases bit <;> simp [BitVec.getElem_shiftConcat]

theorem crc32Bit_eq_shiftConcat (c : U32) (bit : Bool) :
    crc32Bit c bit = feedback 0x04C11DB7 (c.getLsbD 31) ^^^ c.shiftConcat bit := by
  rw [crc32Bit_eq, shiftLeft_one_or_eq_shiftConcat]

theorem shiftConcat_xor {w : Nat} (a b : BitVec w) (x y : Bool) :
    (a ^^^ b).shiftConcat (x ^^ y) = a.shiftConcat x ^^^ b.shiftConcat y := by
  ext i hi
  cases i <;> simp [BitVec.getElem_shiftConcat]

theorem crc32Bit_xor (a b : U32) (x y : Bool) :
    crc32Bit (a ^^^ b) (x ^^ y) = crc32Bit a x ^^^ crc32Bit b y := by
  simp only [crc32Bit_eq_shiftConcat, BitVec.getLsbD_xor, feedback_xor, shiftConcat_xor]
  ac_rfl

/-- The feedback constant sets bit 0, which a zero bit shifted in leaves clear, so a round to zero had no
feedback and lost nothing at the top. -/
theorem crc32Bit_false_eq_zero_iff (c : U32) : crc32Bit c false = 0 ↔ c = 0 := by
  refine ⟨fun h => ?_, by rintro rfl; rfl⟩
  cases hleaving : c.getLsbD 31 <;> rw [crc32Bit_eq_shiftConcat, hleaving] at h
  case true =>
    have hlow := congrArg (·.getLsbD 0) h
    simp at hlow
  case false =>
    refine BitVec.eq_of_getLsbD_eq fun i hi => ?_
    obtain rfl | hin : i = 31 ∨ i + 1 < 32 := by omega
    · simpa using hleaving
    · simpa [hi, hin, BitVec.getLsbD_shiftConcat] using congrArg (·.getLsbD (i + 1)) h

/-- Below 32 bits nothing leaves at the top: the register collects the bits that enter it. -/
theorem crc32Bit_setWidth {n : Nat} (hn : n < 32) (x : BitVec n) (bit : Bool) :
    crc32Bit (x.setWidth 32) bit = (x.concat bit).setWidth 32 := by
  have hleaving : (x.setWidth 32).getLsbD 31 = false := by
    simpa using BitVec.getLsbD_of_ge x 31 (by omega)
  rw [crc32Bit_eq_shiftConcat, hleaving]
  ext i hi
  cases i <;> simp [BitVec.getElem_shiftConcat]

/-! ### One byte of "Crc32" -/

theorem crc32Next_xor (a b : U32) (x y : Byte) :
    crc32Next (a ^^^ b) (x ^^^ y) = crc32Next a x ^^^ crc32Next b y := by
  simp only [crc32Next, BitVec.getLsbD_xor, crc32Bit_xor]

theorem crc32Next_zero_eq_zero_iff (c : U32) : crc32Next c 0 = 0 ↔ c = 0 := by
  have hbits (i : Nat) : (0 : Byte).getLsbD i = false := BitVec.getLsbD_zero
  simp only [crc32Next, hbits, crc32Bit_false_eq_zero_iff]

theorem append_eq_concat_bits {n : Nat} (x : BitVec n) (b : Byte) :
    x ++ b = ((((((((x.concat (b.getLsbD 7)).concat (b.getLsbD 6)).concat (b.getLsbD 5)).concat
      (b.getLsbD 4)).concat (b.getLsbD 3)).concat (b.getLsbD 2)).concat (b.getLsbD 1)).concat
      (b.getLsbD 0)) := by
  refine BitVec.eq_of_getLsbD_eq fun i _ => ?_
  match i with
  | 0 | 1 | 2 | 3 | 4 | 5 | 6 | 7 => simp [BitVec.getElem_append]
  | j + 8 => simp [BitVec.getLsbD_append]

/-- A byte folded into a register whose top byte is clear is appended to it. -/
theorem crc32Next_setWidth {n : Nat} (hn : n + 8 ≤ 32) (x : BitVec n) (b : Byte) :
    crc32Next (x.setWidth 32) b = (x ++ b).setWidth 32 := by
  simp (disch := omega) only [append_eq_concat_bits, crc32Next, crc32Bit_setWidth]

/-! ### Folding bytes into "Crc32" -/

/-- A zero register takes in four bytes whole. -/
theorem crc32Fold_zero (a b c d : Byte) : crc32Fold 0 [a, b, c, d] = be32 a b c d := by
  have ha : crc32Next 0 a = a.setWidth 32 := by
    have h := crc32Next_setWidth (by decide) 0#0 a
    rwa [BitVec.zero_width_append, BitVec.setWidth_cast] at h
  simp only [crc32Fold, List.foldl_cons, List.foldl_nil, ha]
  simp (disch := decide) only [crc32Next_setWidth, BitVec.setWidth_eq, be32]

theorem crc32Fold_zero_be32Bytes (w : U32) : crc32Fold 0 (be32Bytes w) = w := by
  rw [be32Bytes, crc32Fold_zero, be32_extract]

/-- Linearity splits four bytes folded into `c` into the value of `c` and the bytes folded into zero. -/
theorem crc32Fold_be32Bytes (c w : U32) : crc32Fold c (be32Bytes w) = crc32Value c ^^^ w := by
  have hnext (x y : U32) (b : Byte) : crc32Next (x ^^^ y) b = crc32Next x 0 ^^^ crc32Next y b :=
    (congrArg _ BitVec.zero_xor.symm).trans (crc32Next_xor x y 0 b)
  calc crc32Fold c (be32Bytes w)
      = crc32Fold (c ^^^ 0) (be32Bytes w) := congrArg (crc32Fold · _) BitVec.xor_zero.symm
    _ = crc32Value c ^^^ crc32Fold 0 (be32Bytes w) := by
        simp only [crc32Value, be32Bytes, crc32Fold, List.foldl_cons, List.foldl_nil, hnext]
    _ = crc32Value c ^^^ w := by rw [crc32Fold_zero_be32Bytes]

theorem crc32Value_eq_zero_iff (c : U32) : crc32Value c = 0 ↔ c = 0 := by
  simp only [crc32Value, crc32Fold, List.foldl_cons, List.foldl_nil, crc32Next_zero_eq_zero_iff]

/-- Settles O36: the value folded into its own register meets itself. -/
theorem crcThirtyTwoResidueIsZero : Obligations.CrcThirtyTwoResidueIsZero := fun c =>
  ⟨(crc32Fold_be32Bytes c _).trans BitVec.xor_self, (crc32Value_eq_zero_iff c).symm⟩

/-- Settles O37: each round is linear, and the bits of the byte enter by exclusive-or. -/
theorem checksumsAreLinear : Obligations.ChecksumsAreLinear := ⟨crc8Next_xor, crc32Next_xor⟩

/-! ### The operations -/

/-- `crc8_next` writes the new register as the result and nothing else. -/
theorem exec_crc8Next (s : State) (c b : Byte) :
    exec (.crc8Next c b) s = .next { s with result := .byte (crc8Next c b) } := rfl

/-- `crc32_next` writes the new register as the result and nothing else. -/
theorem exec_crc32Next (s : State) (c : U32) (b : Byte) :
    exec (.crc32Next c b) s = .next { s with result := .word (crc32Next c b) } := rfl

/-- `crc32_value` writes the value as the result and nothing else. -/
theorem exec_crc32Value (s : State) (c : U32) :
    exec (.crc32Value c) s = .next { s with result := .word (crc32Value c) } := rfl

/-- The rounds of `crc8_next` as a fold over the round count (41_crc.md R110). -/
theorem crc8Next_eq_foldl (c b : Byte) :
    crc8Next c b = (List.range 8).foldl (fun c _ => crc8Round c) (c ^^^ b) := rfl

/-- The rounds of `crc32_next` as a fold over the bits, the most significant first (41_crc.md R112). -/
theorem crc32Next_eq_foldl (c : U32) (b : Byte) :
    crc32Next c b = [7, 6, 5, 4, 3, 2, 1, 0].foldl (fun c j => crc32Bit c (b.getLsbD j)) c := rfl

/-- Settles O32: the model's eight rounds are the fold, and a round is the statement's branch. -/
theorem crcEightNextFoldsAByte : Obligations.CrcEightNextFoldsAByte := by
  intro s c b
  rw [exec_crc8Next, crc8Next_eq_foldl]
  rfl

/-- Settles O33: the round adds the feedback where the model chooses a branch. -/
theorem crcThirtyTwoNextFoldsAByte : Obligations.CrcThirtyTwoNextFoldsAByte := by
  intro s c b
  simp only [exec_crc32Next, crc32Next_eq_foldl, crc32Bit_eq]
  rfl

/-- Settles O34: the value is the fold of four zero bytes, written out. -/
theorem crcThirtyTwoValueAppendsFourZeros : Obligations.CrcThirtyTwoValueAppendsFourZeros :=
  exec_crc32Value

end Sys2Proof.Machine
end

section
/-!
PROOF. The receive machine, symbol by symbol (42_receive_engine.md R120 to R126, R133): a symbol other than
Ackreq is consumed by the handler of the state and calls nothing, and each handler is said branch by branch.
-/

namespace Sys2Proof.Machine

/-! ### The dispatch of a symbol (42_receive_engine.md R120) -/

/-- A symbol's instruction consumes the symbol. -/
theorem exec_symbolInstr (t : U32) (sym : Symbol) (s : State) :
    exec (symbolInstr t sym) s = .next ((s.receiveSymbol sym t).done .none) := by
  cases sym <;> rfl

/-- Settles O7: `rx_receive` consumes the symbol of its time, as the symbol's instruction does. -/
theorem receiveRunsTheClassifiedSymbol : Obligations.ReceiveRunsTheClassifiedSymbol := fun s t =>
  (execRxReceive_eq t s).trans (exec_symbolInstr t _ s).symm

/-- Settles O29: the result is the flag. -/
theorem activeReportsTheFlag : Obligations.ActiveReportsTheFlag := fun _ => rfl

/-- What a symbol other than Ackreq makes of the ReceiveEngine: the handler of the state, which in `AckReq`
is the restart (42_receive_engine.md R120, R131). -/
def ReceiveEngine.consume (k : Params) (sym : Symbol) (rx : ReceiveEngine) : ReceiveEngine :=
  match rx.state with
  | .preamble => rx.preambleHandler k sym
  | .data => rx.dataHandler k sym
  | .endBit => rx.endBitHandler k sym
  | .ackReq => rx.restart

section

variable {k : Params} {sym : Symbol} {rx : ReceiveEngine}

theorem ReceiveEngine.consume_of_preamble (hs : rx.state = .preamble) :
    rx.consume k sym = rx.preambleHandler k sym := by rw [ReceiveEngine.consume, hs]

theorem ReceiveEngine.consume_of_data (hs : rx.state = .data) :
    rx.consume k sym = rx.dataHandler k sym := by rw [ReceiveEngine.consume, hs]

theorem ReceiveEngine.consume_of_endBit (hs : rx.state = .endBit) :
    rx.consume k sym = rx.endBitHandler k sym := by rw [ReceiveEngine.consume, hs]

theorem ReceiveEngine.consume_of_ackReq (hs : rx.state = .ackReq) : rx.consume k sym = rx.restart := by
  rw [ReceiveEngine.consume, hs]

end

/-- Without an Ackreq there is no override, and no handler makes a call. -/
theorem State.receiveSymbol_of_ne_ackreq {sym : Symbol} (hsym : sym ≠ .ackreq) (t : U32) (s : State) :
    s.receiveSymbol sym t = s.withRx (s.rx.consume s.params sym) := by
  have hover : s.rx.ackreqOverride sym = s.rx := if_neg fun hjump => hsym hjump.1
  cases hs : s.rx.state <;> simp only [State.receiveSymbol, hover, State.withRx_rx, hs]
  case preamble => rw [ReceiveEngine.consume_of_preamble hs]; rfl
  case data => rw [ReceiveEngine.consume_of_data hs]; rfl
  case endBit => rw [ReceiveEngine.consume_of_endBit hs]; rfl
  case ackReq =>
    rw [ReceiveEngine.consume_of_ackReq hs]
    exact if_pos (.inr hsym)

/-- A symbol other than Ackreq writes what it makes of the ReceiveEngine and nothing else. -/
theorem exec_symbolInstr_of_consume {sym : Symbol} {s : State} {rx : ReceiveEngine} (t : U32)
    (hsym : sym ≠ .ackreq) (hrx : s.rx.consume s.params sym = rx) :
    exec (symbolInstr t sym) s = .next { s with rx := rx, result := .none } := by
  rw [exec_symbolInstr, State.receiveSymbol_of_ne_ackreq hsym, hrx]
  rfl

/-! ### `rx_reset` -/

/-- Settles O19: `rx_reset` field by field. -/
theorem restartClearsExactlyTheFrameAndFlags : Obligations.RestartClearsExactlyTheFrameAndFlags :=
  ReceiveEngine.restart_eq

/-! ### Preamble (42_receive_engine.md R124) -/

theorem satInc8_eq_ofNat (v : Byte) : satInc8 v = BitVec.ofNat 8 (min (v.toNat + 1) 255) := by
  rw [← satInc8_toNat, BitVec.ofNat_toNat, BitVec.setWidth_eq]

section

variable {k : Params} {rx : ReceiveEngine} (hs : rx.state = .preamble)

include hs

theorem ReceiveEngine.consume_one_of_preamble :
    rx.consume k .one = { rx with bitCount := BitVec.ofNat 8 (min (rx.bitCount.toNat + 1) 255) } := by
  rw [ReceiveEngine.consume_of_preamble hs, ← satInc8_eq_ofNat]
  rfl

theorem ReceiveEngine.consume_zero_of_preambleMin_le (h : k.preambleMin ≤ rx.bitCount.toNat) :
    rx.consume k .zero = { rx.clearFrame with active := true, state := .data } := by
  rw [ReceiveEngine.consume_of_preamble hs, ReceiveEngine.preambleHandler, if_neg nofun, if_pos ⟨rfl, h⟩]

theorem ReceiveEngine.consume_zero_of_lt_preambleMin (h : rx.bitCount.toNat < k.preambleMin) :
    rx.consume k .zero = rx.restart := by
  rw [ReceiveEngine.consume_of_preamble hs, ReceiveEngine.preambleHandler, if_neg nofun,
    if_neg fun hle => h.not_ge hle.2]

end

/-- An Invalid restarts from every state (42_receive_engine.md R124 to R126, R131). -/
theorem ReceiveEngine.consume_invalid (k : Params) (rx : ReceiveEngine) :
    rx.consume k .invalid = rx.restart := by
  unfold ReceiveEngine.consume
  cases rx.state <;> rfl

/-- Settles O20: the branches of the Preamble handler. -/
theorem preambleCountsThenStartsData : Obligations.PreambleCountsThenStartsData := fun s t hs =>
  ⟨exec_symbolInstr_of_consume (sym := .one) t nofun (ReceiveEngine.consume_one_of_preamble hs),
    fun hle => exec_symbolInstr_of_consume (sym := .zero) t nofun
      (ReceiveEngine.consume_zero_of_preambleMin_le hs hle),
    fun hlt => exec_symbolInstr_of_consume (sym := .zero) t nofun
      (ReceiveEngine.consume_zero_of_lt_preambleMin hs hlt),
    exec_symbolInstr_of_consume (sym := .invalid) t nofun (s.rx.consume_invalid _)⟩

/-! ### Data (42_receive_engine.md R125) -/

/-- A shift that takes in a bit doubles the register and adds the bit. -/
theorem shiftLeft_one_or_eq_ofNat (v : Byte) (bit : Bool) :
    v <<< 1 ||| (if bit then 1#8 else 0#8) = BitVec.ofNat 8 (2 * v.toNat + bit.toNat) := by
  have hdisjoint : v <<< 1 &&& (if bit then 1#8 else 0#8) = 0#8 := by
    ext i
    cases i <;> cases bit <;> simp
  have hdouble : v <<< 1 = BitVec.ofNat 8 (2 * v.toNat) := by bv_omega
  rw [← BitVec.add_eq_or_of_and_eq_zero _ _ hdisjoint, hdouble, BitVec.ofNat_add]
  cases bit <;> rfl

theorem ReceiveEngine.shiftBit_eq (rx : ReceiveEngine) (bit : Bool) :
    rx.shiftBit bit = { rx with
      acc := BitVec.ofNat 8 (2 * rx.acc.toNat + bit.toNat), bitCount := rx.bitCount + 1 } := by
  rw [ReceiveEngine.shiftBit, shiftLeft_one_or_eq_ofNat]

/-- Before the eighth bit a data symbol is only shifted in. -/
theorem ReceiveEngine.consume_of_data_of_count_le {rx : ReceiveEngine} {sym : Symbol} (k : Params)
    (hs : rx.state = .data) (hcount : rx.bitCount.toNat ≤ 6) (hsym : sym = .zero ∨ sym = .one) :
    rx.consume k sym = rx.shiftBit (decide (sym = .one)) := by
  have hpart : (rx.shiftBit (decide (sym = .one))).bitCount ≠ 8 := by
    change rx.bitCount + 1 ≠ 8
    bv_omega
  rw [ReceiveEngine.consume_of_data hs, ReceiveEngine.dataHandler, if_neg fun h => hsym.elim h.1 h.2]
  exact if_neg hpart

/-- Settles O22: before the eighth bit the symbol is only shifted in; an Invalid restarts at any count. -/
theorem dataShiftsOneBit : Obligations.DataShiftsOneBit := by
  intro s t hs
  refine ⟨fun hcount => ⟨?_, ?_⟩, ?_⟩
  · exact exec_symbolInstr_of_consume (sym := .one) t nofun
      ((ReceiveEngine.consume_of_data_of_count_le _ hs hcount (.inr rfl)).trans (s.rx.shiftBit_eq true))
  · exact exec_symbolInstr_of_consume (sym := .zero) t nofun
      ((ReceiveEngine.consume_of_data_of_count_le _ hs hcount (.inl rfl)).trans (s.rx.shiftBit_eq false))
  · exact exec_symbolInstr_of_consume (sym := .invalid) t nofun (s.rx.consume_invalid _)

/-! ### EndBit (42_receive_engine.md R126) -/

theorem ReceiveEngine.consume_zero_of_endBit {rx : ReceiveEngine} (k : Params) (hs : rx.state = .endBit) :
    rx.consume k .zero = { rx with state := .data } := ReceiveEngine.consume_of_endBit hs

theorem ReceiveEngine.consume_one_of_endBit {rx : ReceiveEngine} (k : Params) (hs : rx.state = .endBit) :
    rx.consume k .one = rx.stopBit k := ReceiveEngine.consume_of_endBit hs

/-- Settles O23: the branches of the EndBit handler but the stop bit. -/
theorem endBitGoesOnOrRestarts : Obligations.EndBitGoesOnOrRestarts := fun s t hs =>
  ⟨exec_symbolInstr_of_consume (sym := .zero) t nofun (ReceiveEngine.consume_zero_of_endBit _ hs),
    exec_symbolInstr_of_consume (sym := .invalid) t nofun (s.rx.consume_invalid _)⟩

end Sys2Proof.Machine
end

section
/-!
PROOF. The stop bit: the verdict of `validate`, class by class, and the window that opens on it
(42_receive_engine.md R126 to R130).
-/

namespace Sys2Proof.Machine

/-! ### The verdict -/

section

variable {k : Params} {rx : ReceiveEngine}

theorem isCrc32Class_iff {cmd : U32} :
    isCrc32Class k cmd = true ↔ ∃ c ∈ k.crc32Cmds, cmd = commandCode k.codes c := by
  simp only [isCrc32Class, List.any_eq_true, beq_iff_eq, eq_comm (a := cmd)]

theorem checksumVerdict_of_crc32 {cmd : U32} (h : isCrc32Class k cmd = true) (bad8 bad32 : Bool) :
    checksumVerdict k cmd bad8 bad32 = ⟨bad32, bad32, !bad32⟩ := if_pos h

/-- Outside the "Crc32" class only the Salsa20 IV command acknowledges a wrong Crc8 (42_receive_engine.md
R129). -/
theorem checksumVerdict_of_crc8 {cmd : U32} (h : ¬ isCrc32Class k cmd = true) (bad8 bad32 : Bool) :
    checksumVerdict k cmd bad8 bad32 = ⟨bad8, decide (cmd = k.codes.zsuSalsa20Iv) && bad8, !bad8⟩ := by
  rw [checksumVerdict, if_neg h]
  split <;> simp [*]

theorem ReceiveEngine.busy_iff : rx.busy k = true ↔ k.queueCap - rx.queue.length ≤ 1 := decide_eq_true_iff

theorem ReceiveEngine.validate_of_short (h : rx.buf.length < k.pktMin) :
    rx.validate k = ⟨true, false, false⟩ := if_pos h

theorem ReceiveEngine.validate_of_busy (hmin : k.pktMin ≤ rx.buf.length)
    (hbusy : k.queueCap - rx.queue.length ≤ 1) :
    rx.validate k = ⟨true, decide (commandWord rx.buf = k.codes.busy ∧ rx.crc8 = 0), false⟩ := by
  rw [ReceiveEngine.validate, if_neg hmin.not_gt, if_pos (ReceiveEngine.busy_iff.2 hbusy),
    Bool.decide_and]

theorem ReceiveEngine.validate_of_room (hmin : k.pktMin ≤ rx.buf.length)
    (hroom : 2 ≤ k.queueCap - rx.queue.length) :
    rx.validate k = checksumVerdict k (commandWord rx.buf) (decide (rx.crc8 ≠ 0))
      (decide (rx.crc32 ≠ 0)) := by
  rw [ReceiveEngine.validate, if_neg hmin.not_gt,
    if_neg fun hbusy => (ReceiveEngine.busy_iff.1 hbusy).not_gt hroom]

end

/-! ### The window opens -/

/-- The state after a stop bit with the verdict `v` (42_receive_engine.md R126). -/
def State.opened (s : State) (v : Verdict) : State :=
  { s with
    rx := { s.rx with
      state := .ackReq, nack := v.nack, ack := v.ack,
      queue := if v.queued then s.rx.queue ++ [s.rx.buf] else s.rx.queue,
      bitCount := 0, acc := 0, crc8 := 0, crc32 := 0xFFFFFFFF, buf := [] },
    result := .none }

theorem exec_symOne_of_endBit {s : State} {v : Verdict} (t : U32) (hs : s.rx.state = .endBit)
    (hv : s.rx.validate s.params = v) : exec (.symOne t) s = .next (s.opened v) := by
  subst hv
  exact exec_symbolInstr_of_consume (sym := .one) t nofun
    ((ReceiveEngine.consume_one_of_endBit _ hs).trans (s.rx.stopBit_eq _))

/-- Settles O24: the verdict of each case, with the class's register put in. -/
theorem stopBitValidatesThePacket : Obligations.StopBitValidatesThePacket := by
  intro s t hs opened
  refine ⟨fun hshort => ?_, fun hmin hbusy => ?_, fun hmin hroom => ?_⟩
  · exact exec_symOne_of_endBit t hs (ReceiveEngine.validate_of_short hshort)
  · exact exec_symOne_of_endBit t hs (ReceiveEngine.validate_of_busy hmin hbusy)
  have hverdict := ReceiveEngine.validate_of_room hmin hroom
  refine ⟨fun hclass => ?_, fun hclass => ?_⟩
  · rw [checksumVerdict_of_crc32 (isCrc32Class_iff.2 hclass)] at hverdict
    refine ⟨fun hright => ?_, fun hwrong => ?_⟩
    · rw [decide_eq_false (not_not.2 hright)] at hverdict
      exact exec_symOne_of_endBit t hs hverdict
    · rw [decide_eq_true hwrong] at hverdict
      exact exec_symOne_of_endBit t hs hverdict
  · have hcrc8 : ¬ isCrc32Class s.params (commandWord s.rx.buf) = true := by
      rw [isCrc32Class_iff]
      rintro ⟨c, hc, heq⟩
      exact hclass c hc heq
    rw [checksumVerdict_of_crc8 hcrc8] at hverdict
    refine ⟨fun hright => ?_, fun hwrong => ?_⟩
    · rw [decide_eq_false (not_not.2 hright), Bool.and_false] at hverdict
      exact exec_symOne_of_endBit t hs hverdict
    · rw [decide_eq_true hwrong, Bool.and_true] at hverdict
      exact exec_symOne_of_endBit t hs hverdict

end Sys2Proof.Machine
end

section
/-!
PROOF. The Ackreq symbol and its window (42_receive_engine.md R121, R131, R132): each Ackreq is counted and
makes the pulse of its position; by induction on the window the pulses are those of the two channels. With
the other symbols this says all that `rx_receive` can do.
-/

namespace Sys2Proof.Machine

/-! ### The override -/

/-- The registers that no symbol writes: selection, identity, rate and arbitration (42_receive_engine.md
R123). -/
structure Settings where
  selected : Bool
  serialNumber : U32
  decoderId : U32
  transferRate : Rate
  arbIgnore : Bool

def ReceiveEngine.settings (rx : ReceiveEngine) : Settings where
  selected := rx.selected
  serialNumber := rx.serialNumber
  decoderId := rx.decoderId
  transferRate := rx.transferRate
  arbIgnore := rx.arbIgnore

section

variable {rx : ReceiveEngine} {s : State}

theorem ReceiveEngine.ackreqOverride_of_ackReq (hs : rx.state = .ackReq) (sym : Symbol) :
    rx.ackreqOverride sym = rx := if_neg fun hjump => hjump.2 hs

theorem ReceiveEngine.ackreqOverride_of_ne_ackReq (hs : rx.state ≠ .ackReq) :
    rx.ackreqOverride .ackreq = { rx with state := .ackReq, bitCount := 0 } := if_pos ⟨rfl, hs⟩

/-- An override changes only what a restart sets. -/
theorem ReceiveEngine.restart_ackreqOverride (rx : ReceiveEngine) (sym : Symbol) :
    (rx.ackreqOverride sym).restart = rx.restart := by
  unfold ReceiveEngine.ackreqOverride
  split <;> rfl

theorem ReceiveEngine.ackreqOverride_settings (rx : ReceiveEngine) (sym : Symbol) :
    (rx.ackreqOverride sym).settings = rx.settings := by
  unfold ReceiveEngine.ackreqOverride
  split <;> rfl

theorem ReceiveEngine.ackreqOverride_selected (rx : ReceiveEngine) (sym : Symbol) :
    (rx.ackreqOverride sym).selected = rx.selected :=
  congrArg Settings.selected (rx.ackreqOverride_settings sym)

theorem ReceiveEngine.ackreqOverride_transferRate (rx : ReceiveEngine) (sym : Symbol) :
    (rx.ackreqOverride sym).transferRate = rx.transferRate :=
  congrArg Settings.transferRate (rx.ackreqOverride_settings sym)

/-- The override leaves an Ackreq to the AckReq handler, from whatever state. -/
theorem exec_symAckreq (t : U32) (s : State) : exec (.symAckreq t) s =
    .next (((s.withRx (s.rx.ackreqOverride .ackreq)).ackreqHandler .ackreq t).done .none) := by
  have hstate : (s.rx.ackreqOverride .ackreq).state = .ackReq := by
    by_cases hs : s.rx.state = .ackReq
    · rw [ReceiveEngine.ackreqOverride_of_ackReq hs, hs]
    · rw [ReceiveEngine.ackreqOverride_of_ne_ackReq hs]
  refine (exec_symbolInstr t .ackreq s).trans ?_
  simp only [State.receiveSymbol, State.withRx_rx, hstate]

/-! ### One Ackreq -/

/-- At an unselected decoder an Ackreq restarts, from every state. -/
theorem exec_symAckreq_of_unselected (t : U32) (hsel : s.rx.selected = false) :
    exec (.symAckreq t) s = .next { s with rx := s.rx.restart, result := .none } := by
  rw [exec_symAckreq, State.ackreqHandler,
    if_pos (.inl ((ReceiveEngine.ackreqOverride_selected _ _).trans hsel)), State.withRx_rx,
    ReceiveEngine.restart_ackreqOverride]
  rfl

/-- The call of the ackreq position `n`, with the two windows of positions in one test: channel 1 echoes
nack at 2 to 4, channel 2 ack at 6 to 8 (42_receive_engine.md R132). -/
def positionPulse (tm : Timing) (t : U32) (rx : ReceiveEngine) (n : Nat) : List HostCall :=
  if (2 ≤ n ∧ n ≤ 4 ∧ rx.nack) ∨ (6 ≤ n ∧ n ≤ 8 ∧ rx.ack) then
    [.ackbit (ackDuration tm t rx.transferRate)] else []

/-- The windows of positions exclude each other, so that a position makes at most one pulse. -/
theorem ackPulses_ofNat (tm : Timing) (t : U32) (rx : ReceiveEngine) {n : Nat} (hn : n ≤ 255) :
    ackPulses tm t rx (BitVec.ofNat 8 n) = positionPulse tm t rx n := by
  have hmod : n % 256 = n := by omega
  simp only [ackPulses, positionPulse, BitVec.le_def, BitVec.toNat_ofNat, Nat.reducePow, hmod]
  by_cases hfirst : n ≤ 4
  · have hsecond : ¬ 6 ≤ n := by omega
    simp [hfirst, hsecond]
  · simp [hfirst]

/-- At a selected decoder an Ackreq is the next position after `rx`, the machine that the override leaves,
and makes that position's pulse. -/
theorem exec_symAckreq_of_selected (t : U32) (hsel : s.rx.selected = true)
    (hover : s.rx.ackreqOverride .ackreq = rx) :
    let n := min (rx.bitCount.toNat + 1) 255
    exec (.symAckreq t) s = .next { s with
      rx := { rx with bitCount := BitVec.ofNat 8 n },
      trace := s.trace ++ positionPulse s.params.timing t rx n,
      result := .none } := by
  intro n
  have hselected : rx.selected = true := by
    rw [← hover, ReceiveEngine.ackreqOverride_selected, hsel]
  rw [exec_symAckreq, hover, State.ackreqHandler, State.withRx_rx, if_neg (by simp [hselected]),
    ← ackPulses_ofNat _ _ _ (Nat.min_le_right _ _), ← satInc8_eq_ofNat]
  rfl

end

/-- Settles O25: the override leaves position 0, so that the Ackreq outside `AckReq` is position 1, which
has no pulse. -/
theorem ackreqSymbolOverridesEveryState : Obligations.AckreqSymbolOverridesEveryState := by
  intro s t
  refine ⟨fun hs hsel => ?_, fun _ hsel => exec_symAckreq_of_unselected t hsel, fun hs hsel => ?_⟩
  · simpa [positionPulse] using
      exec_symAckreq_of_selected t hsel (ReceiveEngine.ackreqOverride_of_ne_ackReq hs)
  · exact exec_symAckreq_of_selected t hsel (ReceiveEngine.ackreqOverride_of_ackReq hs _)

/-- Settles O26: the AckReq handler counts no symbol but an Ackreq at a selected decoder. -/
theorem ackreqWindowEndsInRestart : Obligations.AckreqWindowEndsInRestart := by
  intro s t i hs hi
  have hrestart (sym : Symbol) (hsym : sym ≠ .ackreq) :=
    exec_symbolInstr_of_consume (s := s) t hsym (ReceiveEngine.consume_of_ackReq hs)
  simp only [List.mem_cons, List.not_mem_nil, or_false] at hi
  rcases hi with (rfl | rfl | rfl) | ⟨rfl, hsel⟩
  · exact hrestart .zero nofun
  · exact hrestart .one nofun
  · exact hrestart .invalid nofun
  · exact exec_symAckreq_of_unselected t hsel

/-! ### The window -/

theorem execAll_singleton (i : Instr) (s : State) : execAll [i] s = exec i s := by
  rw [execAll]
  cases exec i s <;> rfl

/-- A run that completes is followed by the rest of its instructions. -/
theorem execAll_append_of_next {l : List Instr} (l' : List Instr) {s u : State}
    (h : execAll l s = .next u) : execAll (l ++ l') s = execAll l' u := by
  induction l generalizing s with
  | nil =>
    cases h
    rfl
  | cons i rest ih =>
    rw [execAll] at h
    cases hi : exec i s with
    | next =>
      rw [hi] at h
      rw [List.cons_append, execAll_cons_of_next hi]
      exact ih h
    | fault | refused =>
      rw [hi] at h
      cases h

/-- A slice of a list takes in a new last element exactly when it reaches there. -/
theorem take_drop_concat {α : Type} (l : List α) (x : α) (a n : Nat) :
    ((l ++ [x]).drop a).take n =
      (l.drop a).take n ++ if a ≤ l.length ∧ l.length < a + n then [x] else [] := by
  rw [List.drop_append, List.take_append, List.length_drop]
  congr 1
  by_cases hstart : a ≤ l.length
  · by_cases hend : l.length < a + n
    · have hroom : 1 ≤ n - (l.length - a) := by omega
      simp [hstart, hend, hroom]
    · have hfull : n - (l.length - a) = 0 := by omega
      simp [hend, hfull]
  · have hpast : 1 ≤ a - l.length := by omega
    simp [hstart, hpast]

/-- The calls of a window of Ackreqs at the given times: channel 1 at the second to fourth, channel 2 at the
sixth to eighth (42_receive_engine.md R132). -/
def windowCalls (tm : Timing) (rx : ReceiveEngine) (ts : List U32) : List HostCall :=
  let pulse (t : U32) : HostCall := .ackbit (ackDuration tm t rx.transferRate)
  (if rx.nack then ((ts.drop 1).take 3).map pulse else []) ++
    (if rx.ack then ((ts.drop 5).take 3).map pulse else [])

/-- Channel 1 is over when channel 2 begins, so that each Ackreq adds its call at the end. -/
theorem windowCalls_concat (tm : Timing) (rx : ReceiveEngine) (ts : List U32) (t : U32) :
    windowCalls tm rx (ts ++ [t]) =
      windowCalls tm rx ts ++ positionPulse tm t rx (min (min ts.length 255 + 1) 255) := by
  have hfirst : (2 ≤ min (min ts.length 255 + 1) 255 ∧ min (min ts.length 255 + 1) 255 ≤ 4) ↔
      1 ≤ ts.length ∧ ts.length < 1 + 3 := by omega
  have hsecond : (6 ≤ min (min ts.length 255 + 1) 255 ∧ min (min ts.length 255 + 1) 255 ≤ 8) ↔
      5 ≤ ts.length ∧ ts.length < 5 + 3 := by omega
  simp only [windowCalls, positionPulse, take_drop_concat, ← and_assoc, hfirst, hsecond]
  by_cases hlate : 5 ≤ ts.length
  · have hover : ¬ ts.length < 1 + 3 := by omega
    cases rx.nack <;> cases rx.ack <;> simp [hover, apply_ite]
  · have hbefore : ts.drop 5 = [] := List.drop_eq_nil_of_le (by omega)
    cases rx.nack <;> cases rx.ack <;> simp [hlate, hbefore, apply_ite]

/-- The state after a window of Ackreqs at the given times, opened in `s`. -/
def State.windowed (s : State) (ts : List U32) : State :=
  { s with
    rx := { s.rx with bitCount := BitVec.ofNat 8 (min ts.length 255) },
    trace := s.trace ++ windowCalls s.params.timing s.rx ts,
    result := if ts = [] then s.result else .none }

/-- One more Ackreq is one more position, with its pulse. -/
theorem State.windowed_concat (s : State) (ts : List U32) (t : U32) :
    s.windowed (ts ++ [t]) =
      let n := min (min ts.length 255 + 1) 255
      { s with
        rx := { s.rx with bitCount := BitVec.ofNat 8 n },
        trace := s.trace ++ windowCalls s.params.timing s.rx ts ++ positionPulse s.params.timing t s.rx n,
        result := .none } := by
  have hnext : min (ts ++ [t]).length 255 = min (min ts.length 255 + 1) 255 := by
    rw [List.length_append, List.length_singleton]
    omega
  have hne : ts ++ [t] ≠ [] := by simp
  rw [State.windowed, hnext, windowCalls_concat, ← List.append_assoc, if_neg hne]

theorem execAll_symAckreq {s : State} (hs : s.rx.state = .ackReq) (hcount : s.rx.bitCount = 0)
    (hsel : s.rx.selected = true) (ts : List U32) :
    execAll (ts.map .symAckreq) s = .next (s.windowed ts) := by
  induction ts using List.reverseRecOn with
  | nil =>
    have hzero : BitVec.ofNat 8 (min ([] : List U32).length 255) = s.rx.bitCount := hcount.symm
    rw [State.windowed, hzero]
    simp [execAll, windowCalls]
  | append_singleton ts t ih =>
    have hstep := exec_symAckreq_of_selected (s := s.windowed ts) t hsel
      (ReceiveEngine.ackreqOverride_of_ackReq (rx := (s.windowed ts).rx) hs _)
    rw [List.map_append, List.map_singleton, execAll_append_of_next _ ih, execAll_singleton, hstep]
    have hnumber : (s.windowed ts).rx.bitCount.toNat = min ts.length 255 :=
      (BitVec.toNat_ofNat ..).trans (Nat.mod_eq_of_lt (by omega))
    rw [hnumber, State.windowed_concat]
    rfl

/-- Settles O27: the window's state, written out. -/
theorem ackreqWindowPulsesItsTwoChannels : Obligations.AckreqWindowPulsesItsTwoChannels :=
  fun s ts hs hcount hsel =>
    ⟨s.windowed ts, execAll_symAckreq hs hcount hsel ts, rfl, (List.append_assoc ..).symm, rfl, rfl⟩

/-! ### `rx_receive` completes -/

theorem ReceiveEngine.consume_settings (k : Params) (sym : Symbol) (rx : ReceiveEngine) :
    (rx.consume k sym).settings = rx.settings := by
  unfold ReceiveEngine.consume
  split
  · unfold ReceiveEngine.preambleHandler
    split_ifs <;> rfl
  · unfold ReceiveEngine.dataHandler
    dsimp only
    split_ifs
    · rfl
    · rcases (rx.shiftBit (decide (sym = .one))).completeByte_cases k with ⟨-, heq⟩ | ⟨-, heq⟩ <;>
        rw [heq] <;> rfl
    · rfl
  · unfold ReceiveEngine.endBitHandler
    rw [ReceiveEngine.stopBit_eq]
    split_ifs <;> rfl
  · rfl

/-- A position makes no call, or the one pulse of its time. -/
theorem positionPulse_cases (tm : Timing) (t : U32) (rx : ReceiveEngine) (n : Nat) :
    positionPulse tm t rx n = [] ∨
      positionPulse tm t rx n = [.ackbit (ackDuration tm t rx.transferRate)] := by
  unfold positionPulse
  split
  · exact .inr rfl
  · exact .inl rfl

/-- Every symbol writes only the ReceiveEngine, without its settings, and makes at most the one pulse of its
time. -/
theorem exec_symbolInstr_cases (t : U32) (sym : Symbol) (s : State) :
    ∃ rx cs, exec (symbolInstr t sym) s =
        .next { s with rx := rx, trace := s.trace ++ cs, result := .none } ∧
      rx.settings = s.rx.settings ∧
      (cs = [] ∨ cs = [.ackbit (ackDuration s.params.timing t s.rx.transferRate)]) := by
  by_cases hsym : sym = .ackreq
  · subst hsym
    cases hsel : s.rx.selected
    · refine ⟨s.rx.restart, [], ?_, rfl, .inl rfl⟩
      rw [List.append_nil]
      exact exec_symAckreq_of_unselected t hsel
    · refine ⟨_, _, exec_symAckreq_of_selected t hsel rfl, s.rx.ackreqOverride_settings _, ?_⟩
      rw [← s.rx.ackreqOverride_transferRate .ackreq]
      exact positionPulse_cases _ _ _ _
  · refine ⟨_, [], ?_, s.rx.consume_settings s.params sym, .inl rfl⟩
    rw [List.append_nil]
    exact exec_symbolInstr_of_consume t hsym rfl

/-- Settles O28: every time classifies as a symbol. -/
theorem receiveIsTotalWithAtMostOnePulse : Obligations.ReceiveIsTotalWithAtMostOnePulse := by
  intro s t
  obtain ⟨rx, cs, hexec, hkept, hcalls⟩ :=
    exec_symbolInstr_cases t (classify s.params.timing t s.rx.transferRate) s
  refine ⟨_, (receiveRunsTheClassifiedSymbol s t).trans hexec, rfl, ?_, rfl,
    congrArg Settings.selected hkept, congrArg Settings.serialNumber hkept,
    congrArg Settings.decoderId hkept, congrArg Settings.transferRate hkept,
    congrArg Settings.arbIgnore hkept⟩
  rcases hcalls with rfl | rfl
  · exact .inl (List.append_nil _)
  · exact .inr rfl

end Sys2Proof.Machine
end

section
/-!
PROOF. The dispatch of `rx_execute` (43_execute_dispatch.md R150): the front packet is taken off and runs as
the instruction it decodes to; and what stops it (R173).
-/

namespace Sys2Proof.Machine

/-! ### After a handler that did not return -/

/-- Settles O6: the check before the operation answers the fault. -/
theorem nothingButResetAfterNoReturn : Obligations.NothingButResetAfterNoReturn := by
  intro s p rest i hhalted hreq hdec hreset
  rw [step_of_requests_cons hreq hdec, if_pos (by simp [hhalted, hreset])]

/-! ### The dequeued packet -/

/-- A packet runs as the instruction that it decodes to. -/
theorem runPacket_of_decodePacket {p : List Byte} {i : Instr} {s : State}
    (h : decodePacket s.params.codes p = .ok i) : runPacket p s = exec i s := by
  obtain ⟨w, body, rfl, rfl⟩ := decodePacket_eq_ok_iff.1 h
  simp [be32Bytes, runPacket, be32_extract, runCommand_eq_exec]

theorem exec_rxExecute_of_queue_nil {s : State} (hq : s.rx.queue = []) :
    exec .rxExecute s = .next { s with result := .none } := by
  change execRxExecute s = _
  rw [execRxExecute, hq]
  rfl

theorem exec_rxExecute_of_queue_cons {s : State} {p : List Byte} {q : List (List Byte)} {i : Instr}
    (hq : s.rx.queue = p :: q) (hdec : decodePacket s.params.codes p = .ok i) :
    exec .rxExecute s = exec i { s with rx := { s.rx with queue := q } } := by
  have hpop : s.withRx s.rx.queuePop = { s with rx := { s.rx with queue := q } } := by
    rw [ReceiveEngine.queuePop, hq]
    rfl
  change execRxExecute s = _
  rw [execRxExecute, hpop, hq]
  exact runPacket_of_decodePacket hdec

/-- Settles O8: the queue is empty or has a front packet. -/
theorem executeRunsTheDequeuedPacket : Obligations.ExecuteRunsTheDequeuedPacket :=
  ⟨fun _ _ _ _ => exec_rxExecute_of_queue_cons, fun _ => exec_rxExecute_of_queue_nil⟩

/-! ### A packet of at least four bytes -/

/-- Four bytes are a command, and the others its body (30_encoding.md R63). -/
theorem decodePacket_of_four_le {p : List Byte} (k : Codes) (h : 4 ≤ p.length) :
    decodePacket k p =
      .ok (decodeCommand (commandWord p) (p.drop 4) (commandOfCode k (commandWord p))) := by
  match p with
  | _ :: _ :: _ :: _ :: _ => rfl
  | [] | [_] | [_, _] | [_, _, _] => simp at h

/-- The code of Ping is compared first (43_execute_dispatch.md R150). -/
theorem commandOfCode_ping (k : Codes) : commandOfCode k k.ping = some .ping := by
  simp [commandOfCode, allCommands, commandCode]

/-- Only the command Ping decodes to a Ping. -/
theorem decodeCommand_ne_ping {c : Option Command} (hc : c ≠ some .ping) (w : U32) (body : List Byte)
    (sn did : Option U32) (tail : List Byte) : decodeCommand w body c ≠ .ping sn did tail := by
  cases c with
  | none => exact nofun
  | some c =>
    cases c with
    | ping => exact absurd rfl hc
    | _ => exact nofun

end Sys2Proof.Machine
end

section
/-!
PROOF. Ping and the selection gate (43_execute_dispatch.md R151, R152): as instructions, and of a packet
taken from the queue.
-/

namespace Sys2Proof.Machine

/-! ### The qualifiers of a Ping (30_encoding.md R66) -/

/-- The four bytes at `n` are those of the word that they hold. -/
theorem be32Bytes_byteAt_append_drop {p : List Byte} {n : Nat} (h : n + 4 ≤ p.length) :
    be32Bytes (be32 (byteAt p n) (byteAt p (n + 1)) (byteAt p (n + 2)) (byteAt p (n + 3))) ++
      p.drop (n + 4) = p.drop n := by
  have hbyte (i : Nat) (hi : i < p.length) : byteAt p i :: p.drop (i + 1) = p.drop i := by
    rw [byteAt, List.getD_eq_getElem _ _ hi, List.getElem_cons_drop]
  simp only [be32Bytes_be32, List.cons_append, List.nil_append]
  rw [hbyte (n + 3) (by omega), hbyte (n + 2) (by omega), hbyte (n + 1) (by omega), hbyte n (by omega)]

/-- In a packet the serial number is there from the ninth byte on, the decoder id from the thirteenth. -/
theorem splitPing_drop_four (p : List Byte) :
    ∃ tail, splitPing (p.drop 4) =
      (if 9 ≤ p.length then some (be32 (byteAt p 4) (byteAt p 5) (byteAt p 6) (byteAt p 7)) else none,
        if 13 ≤ p.length then some (be32 (byteAt p 8) (byteAt p 9) (byteAt p 10) (byteAt p 11)) else none,
        tail) := by
  by_cases hserial : 9 ≤ p.length
  · rw [if_pos hserial, ← be32Bytes_byteAt_append_drop (n := 4) (by omega)]
    by_cases hid : 13 ≤ p.length
    · rw [if_pos hid, ← be32Bytes_byteAt_append_drop (n := 8) (by omega)]
      exact ⟨_, splitPing_of_both (by rw [List.length_drop]; omega)⟩
    · rw [if_neg hid]
      exact ⟨_, splitPing_of_serial (by rw [List.length_drop]; omega) (by rw [List.length_drop]; omega)⟩
  · rw [if_neg hserial, if_neg (by omega)]
    exact ⟨_, splitPing_of_length_le (by rw [List.length_drop]; omega)⟩

/-- A qualifier admits the decoder exactly when it is not present, or equal to the decoder's own value. -/
theorem qualifierMatches_iff {q : Option U32} {own : U32} :
    qualifierMatches q own = true ↔ ∀ x, q = some x → x ≠ 0 → x = own := by
  cases q <;> simp [qualifierMatches, or_iff_not_imp_left]

/-- The same of a qualifier that is in the packet only under a condition on its length. -/
theorem qualifierMatches_ite_iff {c : Prop} [Decidable c] {w own : U32} :
    qualifierMatches (if c then some w else none) own = true ↔
      (if c then w else 0) = 0 ∨ (if c then w else 0) = own := by
  by_cases hc : c <;> simp [qualifierMatches, hc]

/-- A Ping selects exactly when both qualifiers admit the decoder. -/
theorem exec_ping_of_iff {s : State} {sn did : Option U32} {P : Prop} [Decidable P]
    (h : qualifierMatches sn s.rx.serialNumber = true ∧ qualifierMatches did s.rx.decoderId = true ↔ P)
    (tail : List Byte) :
    exec (.ping sn did tail) s = .next { s with
      rx := { s.rx with selected := decide P, ack := false }, result := .none } := by
  have hselected : decide P =
      (qualifierMatches sn s.rx.serialNumber && qualifierMatches did s.rx.decoderId) := by
    rw [Bool.eq_iff_iff, decide_eq_true_iff, Bool.and_eq_true, h]
  rw [hselected]
  rfl

/-- Settles O10: the qualifiers of the instruction, respectively those that the packet's length admits. -/
theorem pingSelectsByItsQualifiers : Obligations.PingSelectsByItsQualifiers := by
  refine ⟨fun s sn did tail => exec_ping_of_iff (and_congr qualifierMatches_iff qualifierMatches_iff) tail,
    fun s p q hq hlen hcode => ?_⟩
  intro sn did
  obtain ⟨tail, hsplit⟩ := splitPing_drop_four p
  have hdec := decodePacket_of_four_le s.params.codes hlen
  rw [hcode, commandOfCode_ping, decodeCommand, hsplit] at hdec
  rw [exec_rxExecute_of_queue_cons hq hdec]
  exact exec_ping_of_iff (and_congr qualifierMatches_ite_iff qualifierMatches_ite_iff) tail

/-! ### The gate -/

theorem State.gated_of_selected {s : State} (h : s.rx.selected = true) (run : State → State) :
    s.gated run = run s := if_pos h

theorem State.gated_of_unselected {s : State} (h : s.rx.selected = false) (run : State → State) :
    s.gated run = s := if_neg (by simp [h])

/-- A packet instruction but Ping stops at the gate of an unselected decoder. -/
theorem exec_packet_of_unselected {i : Instr} {s : State} (hl : i.layer = .packet)
    (hping : ∀ sn did tail, i ≠ .ping sn did tail) (h : s.rx.selected = false) :
    exec i s = .next { s with result := .none } := by
  have hgate (run : State → State) : (s.gated run).done .none = { s with result := .none } := by
    rw [State.gated_of_unselected h]
    rfl
  cases i with
  | ping sn did tail => exact absurd rfl (hping sn did tail)
  | configTransferRate _ _ => exact if_neg (by simp [h])
  | binarySearch _ _ | cvRead _ _ | cvWrite _ _ | busy _ | zsuSalsa20Iv _ | zsuErase _ | zsuUpdate _
  | zsuCrc32Start _ | zsuCrc32Result _ | zsuCrc32ResultExit _ | zppValidQuery _ | zppLcDcQuery _
  | zppErase _ | zppUpdate _ | zppUpdateEnd _ | zppExit _ | zppExitReset _ | unlisted _ _ =>
    exact congrArg Host.Outcome.next (hgate _)
  | _ => simp [Instr.layer] at hl

/-- Settles O11: a packet of another code decodes to another packet instruction. -/
theorem unselectedDecoderDropsCommands : Obligations.UnselectedDecoderDropsCommands := by
  refine ⟨fun s i => exec_packet_of_unselected, fun s p q hq hlen hcode hsel => ?_⟩
  have hother : commandOfCode s.params.codes (commandWord p) ≠ some .ping := fun hping =>
    hcode (commandCode_of_commandOfCode hping).symm
  rw [exec_rxExecute_of_queue_cons hq (decodePacket_of_four_le _ hlen)]
  exact exec_packet_of_unselected (decodeCommand_layer _ _ _) (decodeCommand_ne_ping hother _ _) hsel

end Sys2Proof.Machine
end

section
/-!
PROOF. The commands of a selected decoder (43_execute_dispatch.md R153 to R173), each by what its shared
operation can do.
-/

namespace Sys2Proof.Machine

/-! ### ConfigTransferRate (43_execute_dispatch.md R153) -/

theorem rateByte_toNat (r : Rate) : (rateByte r).toNat = rateCode r := by
  cases r <;> rfl

theorem rateCode_le_four (r : Rate) : rateCode r ≤ 4 := by
  cases r <;> decide

theorem rateOfByte_eq_some_iff_toNat {b : Byte} {r : Rate} :
    rateOfByte b = some r ↔ b.toNat = rateCode r := by
  rw [rateOfByte_eq_some_iff, ← BitVec.toNat_inj, rateByte_toNat]

section

variable {s : State}

theorem exec_configTransferRate_some (h : s.rx.selected = true) (b : Byte) (tail : List Byte) :
    exec (.configTransferRate (some b) tail) s = requestRateByte b s := if_pos h

/-- A code above 4 names no rate, and a rate below the register is rejected the same way. -/
theorem requestRateByte_of_rejected {b : Byte}
    (h : 4 < b.toNat ∨ b.toNat < rateCode s.rx.transferRate) :
    requestRateByte b s = .next { s with rx := { s.rx with ack := true }, result := .none } := by
  rcases requestRateByte_cases b s with ⟨r, hr, heq⟩ | ⟨-, heq⟩ <;> rw [heq]
  · have hcode := rateOfByte_eq_some_iff_toNat.1 hr
    have hle := rateCode_le_four r
    rcases State.requestRate_cases r s with ⟨-, hreject⟩ | ⟨hadopt, -⟩
    · rw [hreject]
      rfl
    · omega
  · rfl

theorem requestRateByte_of_adopted {b : Byte} {r : Rate} (hb : b.toNat = rateCode r)
    (h : rateCode s.rx.transferRate ≤ rateCode r) :
    requestRateByte b s =
      .next { s with rx := { s.rx with transferRate := r, ack := false }, result := .none } := by
  have hr := rateOfByte_eq_some_iff_toNat.2 hb
  rcases requestRateByte_cases b s with ⟨r', hr', heq⟩ | ⟨hnone, -⟩
  · cases hr.symm.trans hr'
    rcases State.requestRate_cases r s with ⟨hreject, -⟩ | ⟨-, hadopt⟩
    · exact absurd h hreject.not_ge
    · rw [heq, hadopt]
      rfl
  · cases hr.symm.trans hnone

end

/-- Settles O12: past the gate the rate byte decides. -/
theorem configTransferRateRejectsOrAdopts : Obligations.ConfigTransferRateRejectsOrAdopts := by
  intro s tail hsel
  refine ⟨if_pos hsel, fun b hb => ?_, fun b r hb hle => ?_⟩ <;> rw [exec_configTransferRate_some hsel]
  · exact requestRateByte_of_rejected hb
  · exact requestRateByte_of_adopted hb hle

/-! ### BinarySearch, CvRead and CvWrite (43_execute_dispatch.md R154 to R156) -/

/-- A gated command of a selected decoder runs. -/
theorem next_gated_of_selected {s : State} (h : s.rx.selected = true) (run : State → State) :
    (.next ((s.gated run).done .none) : Host.Outcome State Fault Refusal) = .next ((run s).done .none) := by
  rw [State.gated_of_selected h]

/-- Settles O14: `arb_respond` and BinarySearch share the responder's two functions. -/
theorem binarySearchDelegatesToArbitration : Obligations.BinarySearchDelegatesToArbitration := by
  intro s tail hsel
  refine ⟨next_gated_of_selected hsel (State.search none), fun pos => ?_⟩
  exact ⟨s.respond (positionOfByte pos), s.rx.arbAnswer (positionOfByte pos), execArbRespond_eq pos s, rfl,
    next_gated_of_selected hsel (State.search (some pos))⟩

/-- One CV call, with the result of its command. -/
theorem State.askCv_done_eq (s : State) (c : HostCall) :
    (s.askCv c).done .none = { s.dropCvAnswer with
      rx := { s.rx with ack := s.cvAnswer }, trace := s.trace ++ [c], result := .none } := by
  rw [State.askCv_eq]
  rfl

/-- Settles O15: a packet long enough makes the one CV call. -/
theorem cvReadCallsTheHost : Obligations.CvReadCallsTheHost := by
  intro s tail hsel
  refine ⟨next_gated_of_selected hsel (State.readCv none), fun number pos => ?_⟩
  exact (next_gated_of_selected hsel (State.readCv (some (number, pos)))).trans
    (congrArg _ (s.askCv_done_eq _))

/-- Settles O16: a packet long enough makes the one CV call. -/
theorem cvWriteCallsTheHost : Obligations.CvWriteCallsTheHost := by
  intro s tail hsel
  refine ⟨next_gated_of_selected hsel (State.writeCv none), fun number value => ?_⟩
  exact (next_gated_of_selected hsel (State.writeCv (some (number, value)))).trans
    (congrArg _ (s.askCv_done_eq _))

/-! ### The delegated commands (43_execute_dispatch.md R157 to R173) -/

/-- The delegated instructions with a body, each with the code that it passes on; `other` is the code of
the unlisted one. -/
def delegated (k : Codes) (body : List Byte) (other : U32) : List (Instr × U32) :=
  [(.busy body, k.busy), (.zsuSalsa20Iv body, k.zsuSalsa20Iv), (.zsuErase body, k.zsuErase),
    (.zsuUpdate body, k.zsuUpdate), (.zsuCrc32Start body, k.zsuCrc32Start),
    (.zsuCrc32Result body, k.zsuCrc32Result), (.zsuCrc32ResultExit body, k.zsuCrc32ResultExit),
    (.zppValidQuery body, k.zppValidQuery), (.zppLcDcQuery body, k.zppLcDcQuery),
    (.zppErase body, k.zppErase), (.zppUpdate body, k.zppUpdate), (.zppUpdateEnd body, k.zppUpdateEnd),
    (.zppExit body, k.zppExit), (.zppExitReset body, k.zppExitReset), (.unlisted other body, other)]

/-- Every delegated instruction runs as the delegation of its code. -/
theorem exec_delegated (s : State) (body : List Byte) (other : U32) :
    ∀ x ∈ delegated s.params.codes body other,
      exec x.1 s = .next ((s.delegate x.2 body).done .none) := by
  iterate 15 refine List.forall_mem_cons.2 ⟨rfl, ?_⟩
  exact List.forall_mem_nil _

/-- Settles O17: past the gate the three outcomes of `ext_execute` exclude each other. -/
theorem delegatedCommandsAskTheHost : Obligations.DelegatedCommandsAskTheHost := by
  intro s body other i cmd hmem hsel
  rw [exec_delegated s body other (i, cmd) hmem, State.delegate, State.gated_of_selected hsel]
  rcases s.askExt_cases cmd (be32Bytes cmd ++ body) with
    ⟨habsent, heq⟩ | ⟨answer, hpresent, hanswer, heq⟩ | ⟨hpresent, hanswer, heq⟩ <;> rw [heq]
  · refine ⟨fun _ hpresent _ => ?_, fun hpresent _ => ?_, fun _ => rfl⟩
    · exact nomatch habsent.symm.trans hpresent
    · exact nomatch habsent.symm.trans hpresent
  · refine ⟨fun b _ hreturns => ?_, fun _ hnever => ?_, fun habsent => ?_⟩
    · cases hanswer.symm.trans hreturns
      rfl
    · exact nomatch hanswer.symm.trans hnever
    · exact nomatch habsent.symm.trans hpresent
  · refine ⟨fun _ _ hreturns => ?_, fun _ _ => rfl, fun habsent => ?_⟩
    · exact nomatch hanswer.symm.trans hreturns
    · exact nomatch habsent.symm.trans hpresent

end Sys2Proof.Machine
end

section
/-!
PROOF. What a command leaves of the ReceiveEngine and how often it calls (43_execute_dispatch.md R174), and
that `rx_execute` has a next state.
-/

namespace Sys2Proof.Machine

/-- What a command keeps: of the ReceiveEngine it may write only `rx_selected`, `rx_ack`, the rate and
`arb_ignore`, and it makes at most one host call, no `ackbit` (43_execute_dispatch.md R174). -/
structure State.CommandFrame (s t : State) : Prop where
  rx : t.rx = { s.rx with
    selected := t.rx.selected, ack := t.rx.ack, transferRate := t.rx.transferRate,
    arbIgnore := t.rx.arbIgnore }
  calls : t.trace = s.trace ∨ ∃ c, t.trace = s.trace ++ [c] ∧ ∀ d, c ≠ .ackbit d

section

variable {s t : State}

/-- The calls of a command as the list that it adds. -/
theorem State.CommandFrame.exists_calls (h : s.CommandFrame t) :
    ∃ cs : List HostCall, t.trace = s.trace ++ cs ∧ cs.length ≤ 1 ∧ ∀ d, HostCall.ackbit d ∉ cs := by
  rcases h.calls with hnone | ⟨c, hone, hc⟩
  · exact ⟨[], by simpa using hnone, by simp, by simp⟩
  · exact ⟨[c], hone, le_rfl, fun d hd => hc d (List.mem_singleton.1 hd).symm⟩

/-! ### The shared operations -/

theorem State.commandFrame_refl (s : State) : s.CommandFrame s := ⟨rfl, .inl rfl⟩

theorem State.withAck_frame (s : State) (b : Bool) : s.CommandFrame (s.withAck b) := ⟨rfl, .inl rfl⟩

theorem State.askCv_frame (s : State) {c : HostCall} (hc : ∀ d, c ≠ .ackbit d) :
    s.CommandFrame (s.askCv c) := by
  rw [State.askCv_eq]
  exact ⟨rfl, .inr ⟨c, rfl, hc⟩⟩

theorem State.askExt_frame (s : State) (cmd : U32) (p : List Byte) : s.CommandFrame (s.askExt cmd p) := by
  rcases s.askExt_cases cmd p with ⟨-, heq⟩ | ⟨b, -, -, heq⟩ | ⟨-, -, heq⟩ <;> rw [heq]
  · exact s.withAck_frame false
  · exact ⟨rfl, .inr ⟨_, rfl, nofun⟩⟩
  · exact ⟨by simp, .inr ⟨_, rfl, nofun⟩⟩

theorem State.gated_frame {run : State → State} (h : s.CommandFrame (run s)) :
    s.CommandFrame (s.gated run) := by
  rcases s.gated_cases run with ⟨-, heq⟩ | ⟨-, heq⟩ <;> rw [heq]
  · exact h
  · exact s.commandFrame_refl

theorem State.requestRate_frame (s : State) (r : Rate) : s.CommandFrame (s.requestRate r) := by
  rcases State.requestRate_cases r s with ⟨-, heq⟩ | ⟨-, heq⟩ <;> rw [heq]
  · exact s.withAck_frame true
  · exact ⟨rfl, .inl rfl⟩

theorem State.search_frame (s : State) (position : Option Byte) : s.CommandFrame (s.search position) := by
  cases position with
  | none => exact s.withAck_frame false
  | some b => exact ⟨rfl, .inl rfl⟩

theorem State.readCv_frame (s : State) (fields : Option (U16 × Byte)) :
    s.CommandFrame (s.readCv fields) := by
  cases fields with
  | none => exact s.withAck_frame false
  | some f => exact s.askCv_frame nofun

theorem State.writeCv_frame (s : State) (fields : Option (U16 × Byte)) :
    s.CommandFrame (s.writeCv fields) := by
  cases fields with
  | none => exact s.withAck_frame false
  | some f => exact s.askCv_frame nofun

/-! ### The commands -/

theorem exec_configTransferRate_frame (s : State) (rate : Option Byte) (tail : List Byte) :
    ∃ t, exec (.configTransferRate rate tail) s = .next (t.done .none) ∧ s.CommandFrame t := by
  cases hsel : s.rx.selected with
  | false => exact ⟨s, exec_packet_of_unselected rfl nofun hsel, s.commandFrame_refl⟩
  | true =>
    cases rate with
    | none => exact ⟨_, if_pos hsel, s.withAck_frame false⟩
    | some b =>
      rw [exec_configTransferRate_some hsel]
      rcases requestRateByte_cases b s with ⟨r, -, heq⟩ | ⟨-, heq⟩
      · exact ⟨_, heq, s.requestRate_frame r⟩
      · exact ⟨_, heq, s.withAck_frame true⟩

/-- Every packet instruction has a next state within the frame of a command. -/
theorem exec_packet_frame {i : Instr} (hl : i.layer = .packet) (s : State) :
    ∃ t, exec i s = .next (t.done .none) ∧ s.CommandFrame t := by
  cases i with
  | ping sn did tail => exact ⟨_, rfl, ⟨rfl, .inl rfl⟩⟩
  | configTransferRate rate tail => exact exec_configTransferRate_frame s rate tail
  | binarySearch position _ => exact ⟨_, rfl, State.gated_frame (s.search_frame position)⟩
  | cvRead fields _ => exact ⟨_, rfl, State.gated_frame (s.readCv_frame fields)⟩
  | cvWrite fields _ => exact ⟨_, rfl, State.gated_frame (s.writeCv_frame fields)⟩
  | busy _ | zsuSalsa20Iv _ | zsuErase _ | zsuUpdate _ | zsuCrc32Start _ | zsuCrc32Result _
  | zsuCrc32ResultExit _ | zppValidQuery _ | zppLcDcQuery _ | zppErase _ | zppUpdate _ | zppUpdateEnd _
  | zppExit _ | zppExitReset _ | unlisted _ _ =>
    exact ⟨_, rfl, State.gated_frame (s.askExt_frame _ _)⟩
  | _ => simp [Instr.layer] at hl

/-! ### `rx_execute` -/

/-- `rx_execute` has a next state, and is a command on the state without the front packet. -/
theorem execRxExecute_frame (hfront : ∀ p ∈ s.rx.queue.head?, 4 ≤ p.length) :
    ∃ t, execRxExecute s = .next (t.done .none) ∧ (s.withRx s.rx.queuePop).CommandFrame t := by
  rcases execRxExecute_cases s with ⟨hempty, heq⟩ | ⟨p, hp, heq⟩
  · have hpop : s.rx.queuePop = s.rx := by
      rw [ReceiveEngine.queuePop, hempty, List.tail_nil, ← hempty]
    exact ⟨s, heq, by rw [hpop]; exact s.commandFrame_refl⟩
  · have hdec := decodePacket_of_four_le (s.withRx s.rx.queuePop).params.codes (hfront p hp)
    rw [heq, runPacket_of_decodePacket hdec]
    exact exec_packet_frame (decodeCommand_layer _ _ _) _

end

/-- Settles O18: the frame of the command after the dequeue; the components besides the ReceiveEngine are
kept by every receiver step. -/
theorem executeCompletesAndKeepsTheReceiver : Obligations.ExecuteCompletesAndKeepsTheReceiver := by
  intro s hfront
  obtain ⟨t, hexec, hframe⟩ := execRxExecute_frame hfront
  have hstep := execRxExecute_step hexec
  exact ⟨t.done .none, hexec, hframe.rx, hstep.tx, hstep.es, hstep.params, rfl, hframe.exists_calls⟩

end Sys2Proof.Machine
end

section
/-!
PROOF. The operations of the TransmitEngine (44_transmit_engine.md R180 to R188): when it is configured and
loaded, and what one tick does in each state.
-/

namespace Sys2Proof.Machine

/-! ### Configuration and loading (44_transmit_engine.md R180 to R182) -/

section

variable {s : State}

/-- A code above 4 names no rate (30_encoding.md R73). -/
theorem rateOfByte_eq_none_of_four_lt {b : Byte} (h : 4 < b.toNat) : rateOfByte b = none :=
  Option.eq_none_iff_forall_ne_some.2 fun r hr =>
    absurd (rateOfByte_eq_some_iff_toNat.1 hr) (by have := rateCode_le_four r; omega)

theorem exec_txInit_of_idle (hs : s.tx.state = .idle) {c : TxConfig} {r : Rate}
    (hr : rateOfByte c.rate = some r) :
    exec (.txInit c) s = .next { s with
      tx := { s.tx with
        rate := r, numPreamble := c.numPreamble, numAckreq := c.numAckreq, invert := c.invert },
      result := .bool true } := by
  change execTxInit c s = _
  rw [execTxInit, hs, hr]
  rfl

theorem exec_txInit_of_refused {c : TxConfig} (h : s.tx.state ≠ .idle ∨ rateOfByte c.rate = none) :
    exec (.txInit c) s = .next { s with result := .bool false } := by
  rcases execTxInit_cases c s with ⟨r, hidle, hr, -⟩ | hrefused
  · simp [hidle, hr] at h
  · exact hrefused

theorem exec_txSetTransferRate_of_idle (hs : s.tx.state = .idle) {b : Byte} {r : Rate}
    (hr : rateOfByte b = some r) :
    exec (.txSetTransferRate b) s = .next { s with
      tx := { s.tx with rate := r }, result := .bool true } := by
  change execTxSetTransferRate b s = _
  rw [execTxSetTransferRate, hs, hr]
  rfl

theorem exec_txSetTransferRate_of_refused {b : Byte} (h : s.tx.state ≠ .idle ∨ rateOfByte b = none) :
    exec (.txSetTransferRate b) s = .next { s with result := .bool false } := by
  rcases execTxSetTransferRate_cases b s with ⟨r, hidle, hr, -⟩ | hrefused
  · simp [hidle, hr] at h
  · exact hrefused

/-- Settles O41: the rate code names a rate exactly when it is at most 4. -/
theorem transmitConfiguredOnlyWhileIdle : Obligations.TransmitConfiguredOnlyWhileIdle := fun _ _ _ =>
  ⟨fun _ hs hr => exec_txInit_of_idle hs (rateOfByte_eq_some_iff_toNat.2 hr),
    fun h => exec_txInit_of_refused (h.imp_right rateOfByte_eq_none_of_four_lt),
    fun _ hs hr => exec_txSetTransferRate_of_idle hs (rateOfByte_eq_some_iff_toNat.2 hr),
    fun h => exec_txSetTransferRate_of_refused (h.imp_right rateOfByte_eq_none_of_four_lt)⟩

theorem TransmitEngine.accepts_iff {k : Params} {tx : TransmitEngine} {p : List Byte} :
    tx.accepts k p = true ↔ tx.state = .idle ∧ 1 ≤ p.length ∧ p.length ≤ k.pktCap := by
  simp only [TransmitEngine.accepts, Bool.and_eq_true, decide_eq_true_eq, and_assoc, Nat.one_le_iff_ne_zero,
    ne_eq, List.length_eq_zero_iff]

/-- Counters are compared as the numbers they hold (00_scope.md R7). -/
theorem byte_pos_iff {n : Byte} : 0 < n.toNat ↔ n ≠ 0 := by bv_omega

/-- An accepted packet, with the test of the preamble count as a comparison. -/
theorem TransmitEngine.load_eq (tx : TransmitEngine) (p : List Byte) :
    tx.load p = { tx with
      pkt := p, preCount := 0, ackCount := 0, byteIdx := 0, bitIdx := 8,
      state := if 0 < tx.numPreamble.toNat then .preamble else .packet } := by
  simp only [TransmitEngine.load, byte_pos_iff, ne_eq, ite_not]

/-- A packet is accepted, and then loaded, or refused. -/
theorem exec_txPacket (s : State) (p : List Byte) :
    exec (.txPacket p) s = .next (if s.tx.accepts s.params p then
      { s with tx := s.tx.load p, result := .bool true } else { s with result := .bool false }) := rfl

/-- Settles O42: the operands of the second clause are those that are not accepted. -/
theorem txPacketLoadsWhenIdle : Obligations.TxPacketLoadsWhenIdle := by
  intro s p
  rw [exec_txPacket]
  refine ⟨fun hs hpos hcap => ?_, fun hrefused => ?_⟩
  · rw [if_pos (TransmitEngine.accepts_iff.2 ⟨hs, hpos, hcap⟩), TransmitEngine.load_eq]
  · rw [if_neg]
    rw [TransmitEngine.accepts_iff]
    rintro ⟨hs, hpos, hcap⟩
    rcases hrefused with hbusy | hempty | hlong
    · exact hbusy hs
    · omega
    · omega

/-- The result says that a packet was accepted. -/
theorem exec_txPacket_accepted {t : State} {p : List Byte} (h : exec (.txPacket p) s = .next t)
    (ht : t.result = .bool true) :
    (1 ≤ p.length ∧ p.length ≤ s.params.pktCap) ∧ t.tx = s.tx.load p ∧ t.params = s.params := by
  rw [exec_txPacket] at h
  cases h
  by_cases hacc : s.tx.accepts s.params p = true
  · obtain ⟨-, hlength⟩ := TransmitEngine.accepts_iff.1 hacc
    rw [if_pos hacc]
    exact ⟨hlength, rfl, rfl⟩
  · rw [if_neg hacc] at ht
    cases ht

end

/-! ### One tick (44_transmit_engine.md R183 to R188) -/

/-- The state after a tick. -/
def State.ticked (s : State) : State :=
  { s with
    tx := s.tx.tick,
    trace := s.trace ++ s.tx.tickCalls s.params.host,
    result := .word (s.tx.duration (timingRow s.params.timing s.tx.rate)) }

theorem exec_txTransmit (s : State) : exec .txTransmit s = .next s.ticked := rfl

section

variable {tx : TransmitEngine}

theorem TransmitEngine.advance_of_idle (hs : tx.state = .idle) : tx.advance = tx := by
  rw [TransmitEngine.advance, hs]

theorem TransmitEngine.advance_of_preamble (hs : tx.state = .preamble) : tx.advance = tx.preambleTick := by
  rw [TransmitEngine.advance, hs]

theorem TransmitEngine.advance_of_packet (hs : tx.state = .packet) : tx.advance = tx.packetTick := by
  rw [TransmitEngine.advance, hs]

theorem TransmitEngine.advance_of_packetEnd (hs : tx.state = .packetEnd) :
    tx.advance = tx.packetEndTick := by
  rw [TransmitEngine.advance, hs]

theorem TransmitEngine.advance_of_ackReq (hs : tx.state = .ackReq) : tx.advance = tx.ackreqTick := by
  rw [TransmitEngine.advance, hs]

theorem TransmitEngine.preambleTick_of_lt (h : (tx.preCount + 1).toNat < tx.numPreamble.toNat) :
    tx.preambleTick = { tx with preCount := tx.preCount + 1 } :=
  if_neg (BitVec.not_le.2 h)

theorem TransmitEngine.preambleTick_of_le (h : tx.numPreamble.toNat ≤ (tx.preCount + 1).toNat) :
    tx.preambleTick = { tx with
      preCount := tx.preCount + 1, state := .packet, byteIdx := 0, bitIdx := 8 } :=
  if_pos h

/-- The start bit is pending at index 8. -/
theorem bitIdx_eq_eight_iff {i : Fin 9} : i.val = 8 ↔ i = 8 := (Fin.ext_iff (b := 8)).symm

/-- The last bit of a byte is at index 0. -/
theorem bitIdx_eq_zero_iff {i : Fin 9} : i.val = 0 ↔ i = 0 := (Fin.ext_iff (b := 0)).symm

theorem TransmitEngine.packetTick_of_startBit (h : tx.bitIdx = 8) :
    tx.packetTick = { tx with bitIdx := 7 } :=
  if_pos (bitIdx_eq_eight_iff.2 h)

theorem TransmitEngine.packetTick_of_middleBit (hstart : tx.bitIdx ≠ 8) (hlast : tx.bitIdx ≠ 0) :
    tx.packetTick = { tx with bitIdx := ⟨tx.bitIdx.val - 1, by omega⟩ } := by
  rw [TransmitEngine.packetTick, if_neg (bitIdx_eq_eight_iff.not.2 hstart),
    if_neg (bitIdx_eq_zero_iff.not.2 hlast)]

theorem TransmitEngine.packetTick_of_lastBit (hs : tx.state = .packet) (h : tx.bitIdx = 0) :
    tx.packetTick = { tx with
      byteIdx := tx.byteIdx + 1, bitIdx := 8,
      state := if tx.byteIdx + 1 = tx.pkt.length then .packetEnd else .packet } := by
  rw [TransmitEngine.packetTick, if_neg (by simp [h]), if_pos (bitIdx_eq_zero_iff.2 h), hs]

theorem TransmitEngine.packetEndTick_eq (tx : TransmitEngine) :
    tx.packetEndTick = { tx with
      ackCount := 0, state := if 0 < tx.numAckreq.toNat then .ackReq else .idle } := by
  simp only [TransmitEngine.packetEndTick, byte_pos_iff, ne_eq, ite_not]

theorem TransmitEngine.ackreqTick_eq (hs : tx.state = .ackReq) :
    tx.ackreqTick = { tx with
      ackCount := tx.ackCount + 1,
      state := if tx.ackCount + 1 = tx.numAckreq then .idle else .ackReq } := by
  rw [TransmitEngine.ackreqTick, hs]

variable (w : TimingRow)

theorem TransmitEngine.duration_of_idle (hs : tx.state = .idle) : tx.duration w = w.one := by
  rw [TransmitEngine.duration, hs]

theorem TransmitEngine.duration_of_preamble (hs : tx.state = .preamble) : tx.duration w = w.one := by
  rw [TransmitEngine.duration, hs]

theorem TransmitEngine.duration_of_startBit (hs : tx.state = .packet) (h : tx.bitIdx = 8) :
    tx.duration w = w.zero := by
  simp only [TransmitEngine.duration, hs]
  exact if_pos (bitIdx_eq_eight_iff.2 h)

theorem TransmitEngine.duration_of_dataBit (hs : tx.state = .packet) (h : tx.bitIdx ≠ 8) :
    tx.duration w = bitDuration w ((byteAt tx.pkt tx.byteIdx).getLsbD tx.bitIdx.val) := by
  simp only [TransmitEngine.duration, hs]
  exact if_neg (bitIdx_eq_eight_iff.not.2 h)

theorem TransmitEngine.duration_of_packetEnd (hs : tx.state = .packetEnd) : tx.duration w = w.one := by
  rw [TransmitEngine.duration, hs]

theorem TransmitEngine.duration_of_ackReq (hs : tx.state = .ackReq) : tx.duration w = w.ackreq := by
  rw [TransmitEngine.duration, hs]

/-- A tick keeps the packet and the configuration, and toggles the polarity. -/
theorem TransmitEngine.tick_eq (tx : TransmitEngine) : tx.tick = { tx with
    polarity := !tx.polarity, state := tx.tick.state, preCount := tx.tick.preCount,
    ackCount := tx.tick.ackCount, byteIdx := tx.tick.byteIdx, bitIdx := tx.tick.bitIdx } := by
  obtain ⟨hpkt, hrate, hpreamble, hackreq, hinvert, hpolarity⟩ := tx.tick_keeps
  rw [← hpkt, ← hrate, ← hpreamble, ← hackreq, ← hinvert, ← hpolarity]

end

/-- Settles O43: each clause is the tick of its state. -/
theorem transmitTicksInEveryState : Obligations.TransmitTicksInEveryState := by
  intro s
  have hadvance {tx : TransmitEngine} (h : s.tx.advance = tx) :
      s.ticked.tx = { tx with polarity := !s.tx.polarity } := by
    rw [← h]
    rfl
  refine ⟨s.ticked, if s.tx.state = .ackReq then
      ackreqCalls s.params.host (s.tx.ackCount + 1) s.tx.numAckreq else [],
    exec_txTransmit s, rfl, (List.append_assoc ..).symm, fun hs => if_neg hs, s.tx.tick_eq,
    fun hs => ?idle, fun hs => ?preamble, fun hs hbit => ?startBit, fun hs hbit => ?dataBit,
    fun hs => ?packetEnd, fun hs => ?ackReq⟩
  case idle =>
    exact ⟨congrArg _ (TransmitEngine.duration_of_idle _ hs), hadvance (TransmitEngine.advance_of_idle hs)⟩
  case preamble =>
    refine ⟨congrArg _ (TransmitEngine.duration_of_preamble _ hs), fun hlt => ?_, fun hle => ?_⟩
    · exact hadvance ((TransmitEngine.advance_of_preamble hs).trans (TransmitEngine.preambleTick_of_lt hlt))
    · exact hadvance ((TransmitEngine.advance_of_preamble hs).trans (TransmitEngine.preambleTick_of_le hle))
  case startBit =>
    exact ⟨congrArg _ (TransmitEngine.duration_of_startBit _ hs hbit),
      hadvance ((TransmitEngine.advance_of_packet hs).trans (TransmitEngine.packetTick_of_startBit hbit))⟩
  case dataBit =>
    refine ⟨congrArg _ (TransmitEngine.duration_of_dataBit _ hs hbit), fun hmiddle => ?_, fun hlast => ?_⟩
    · have htx := hadvance
        ((TransmitEngine.advance_of_packet hs).trans (TransmitEngine.packetTick_of_middleBit hbit hmiddle))
      rw [htx]
      exact ⟨rfl, Nat.sub_add_cancel (Nat.pos_of_ne_zero (bitIdx_eq_zero_iff.not.2 hmiddle))⟩
    · exact hadvance
        ((TransmitEngine.advance_of_packet hs).trans (TransmitEngine.packetTick_of_lastBit hs hlast))
  case packetEnd =>
    exact ⟨congrArg _ (TransmitEngine.duration_of_packetEnd _ hs),
      hadvance ((TransmitEngine.advance_of_packetEnd hs).trans s.tx.packetEndTick_eq)⟩
  case ackReq =>
    exact ⟨congrArg _ (TransmitEngine.duration_of_ackReq _ hs),
      hadvance ((TransmitEngine.advance_of_ackReq hs).trans (TransmitEngine.ackreqTick_eq hs))⟩

/-- A callback inside its window of ticks, when registered: the two tests as one. -/
theorem ite_ifRegistered (P : Prop) [Decidable P] (present : Bool) (c : HostCall) :
    (if P then ifRegistered present c else []) = if P ∧ present then [c] else [] := by
  rw [ite_and]
  rfl

/-- The callbacks of an ackreq tick, with the tick number and the registration in one test. -/
theorem ackreqCalls_eq (h : HostCaps) (n last : Byte) : ackreqCalls h n last =
    (if n.toNat = 1 ∧ h.ackreqBegin then [.ackreqBegin] else [])
      ++ (if 2 ≤ n.toNat ∧ n.toNat ≤ 4 ∧ h.ackreqChannel1 then [.ackreqChannel1 n] else [])
      ++ (if 6 ≤ n.toNat ∧ n.toNat ≤ 8 ∧ h.ackreqChannel2 then [.ackreqChannel2 n] else [])
      ++ (if n = last ∧ h.ackreqEnd then [.ackreqEnd] else []) := by
  simp only [ackreqCalls, ite_ifRegistered, and_assoc, BitVec.le_def, ← BitVec.toNat_inj (y := 1)]
  rfl

/-- Settles O44: the ackreq tick, with its callbacks after the track level. -/
theorem ackreqTickCallsBack : Obligations.AckreqTickCallsBack := by
  intro s hs n h
  have htx : s.tx.tick = { s.tx with
      polarity := !s.tx.polarity, ackCount := n,
      state := if n = s.tx.numAckreq then .idle else .ackReq } := by
    rw [TransmitEngine.tick, TransmitEngine.advance_of_ackReq hs, TransmitEngine.ackreqTick_eq hs]
  have hcalls : s.tx.tickCalls h =
      ifRegistered h.trackOutputs (.trackOutputs (xor (!s.tx.polarity) s.tx.invert)) ++
        ackreqCalls h n s.tx.numAckreq := by
    rw [TransmitEngine.tickCalls, if_pos hs]
  rw [exec_txTransmit, State.ticked, htx, hcalls, ackreqCalls_eq, TransmitEngine.duration_of_ackReq _ hs]
  simp only [ifRegistered, List.append_assoc]

end Sys2Proof.Machine
end

section
/-!
PROOF. The frame that the TransmitEngine emits (44_transmit_engine.md R190): the ticks of each phase, the
preamble, the bytes, the stop bit and the ackreqs, put together. The polarity, which every tick toggles and
no duration depends on, is left aside.
-/

namespace Sys2Proof.Machine

/-! ### Ticks in a row -/

def TransmitEngine.withPolarity (tx : TransmitEngine) (b : Bool) : TransmitEngine := { tx with polarity := b }

theorem TransmitEngine.advance_withPolarity (tx : TransmitEngine) (b : Bool) :
    (tx.withPolarity b).advance = tx.advance.withPolarity b := by
  have hstate : (tx.withPolarity b).state = tx.state := rfl
  cases hs : tx.state with
  | idle => rw [advance_of_idle (hstate.trans hs), advance_of_idle hs]
  | preamble =>
    rw [advance_of_preamble (hstate.trans hs), advance_of_preamble hs]
    simp only [preambleTick, apply_ite (withPolarity · b)]
    rfl
  | packet =>
    rw [advance_of_packet (hstate.trans hs), advance_of_packet hs]
    simp only [packetTick, apply_ite (withPolarity · b)]
    rfl
  | packetEnd =>
    rw [advance_of_packetEnd (hstate.trans hs), advance_of_packetEnd hs]
    rfl
  | ackReq =>
    rw [advance_of_ackReq (hstate.trans hs), advance_of_ackReq hs, ackreqTick_eq (hstate.trans hs),
      ackreqTick_eq hs]
    rfl

theorem TransmitEngine.tick_withPolarity (tx : TransmitEngine) (b : Bool) :
    (tx.withPolarity b).tick = tx.advance.withPolarity (!b) := by
  rw [TransmitEngine.tick, TransmitEngine.advance_withPolarity]
  rfl

/-- `tx.Sends w ds tx'`: the ticks from `tx` return the durations `ds` of the row `w` and leave `tx'`, the
polarity aside, and the engine is idle at none of them. -/
inductive TransmitEngine.Sends (w : TimingRow) : TransmitEngine → List U32 → TransmitEngine → Prop
  | nil (tx : TransmitEngine) : Sends w tx [] tx
  | cons {tx tx' : TransmitEngine} {ds : List U32} (hs : tx.state ≠ .idle) (h : Sends w tx.advance ds tx') :
      Sends w tx (tx.duration w :: ds) tx'

section

variable {w : TimingRow} {tx tx' tx'' : TransmitEngine} {ds es : List U32}

theorem TransmitEngine.Sends.append (h : tx.Sends w ds tx') (h' : tx'.Sends w es tx'') :
    tx.Sends w (ds ++ es) tx'' := by
  induction h with
  | nil => exact h'
  | cons hs _ ih => exact .cons hs (ih h')

/-- One tick, with its duration and its next engine as they are found. -/
theorem TransmitEngine.Sends.single {d : U32} (hs : tx.state ≠ .idle) (hd : tx.duration w = d)
    (hadvance : tx.advance = tx') : tx.Sends w [d] tx' := by
  subst hd hadvance
  exact .cons hs (.nil _)

/-- A phase: what carries the engine from each of its stages to the next carries it through all of them. -/
theorem TransmitEngine.Sends.stages {stage : Nat → TransmitEngine} {part : Nat → List U32} {n : Nat}
    (h : ∀ i < n, (stage i).Sends w (part i) (stage (i + 1))) :
    (stage 0).Sends w ((List.range n).flatMap part) (stage n) := by
  induction n with
  | zero => exact .nil _
  | succ n ih =>
    rw [List.range_succ, List.flatMap_append, List.flatMap_singleton]
    exact (ih fun i hi => h i (by omega)).append (h n (by omega))

/-- Before each of the durations the engine is not idle. -/
theorem TransmitEngine.Sends.take (h : tx.Sends w ds tx') {n : Nat} (hn : n < ds.length) :
    ∃ v, tx.Sends w (ds.take n) v ∧ v.state ≠ .idle := by
  induction h generalizing n with
  | nil => exact absurd hn (Nat.not_lt_zero n)
  | cons hs h ih =>
    cases n with
    | zero => exact ⟨_, .nil _, hs⟩
    | succ n =>
      obtain ⟨v, hsends, hv⟩ := ih (Nat.lt_of_succ_lt_succ hn)
      exact ⟨v, .cons hs hsends, hv⟩

/-- The first of several ticks. -/
theorem transmitN_succ (n : Nat) (s : State) : transmitN (n + 1) s =
    (transmitN n s.ticked).map fun x =>
      (s.tx.duration (timingRow s.params.timing s.tx.rate) :: x.1, x.2) := rfl

/-- The durations that an engine sends are the results of as many `tx_transmit`, which leave the state it
ends in and the row it sends from. -/
theorem TransmitEngine.Sends.transmitN (h : tx.Sends w ds tx') {s : State} {b : Bool}
    (htx : s.tx = tx.withPolarity b) (hw : timingRow s.params.timing tx.rate = w) :
    ∃ u, transmitN ds.length s = some (ds, u) ∧ u.tx.state = tx'.state ∧
      timingRow u.params.timing u.tx.rate = w := by
  induction h generalizing s b with
  | nil =>
    refine ⟨s, rfl, ?_, ?_⟩ <;> rw [htx]
    · rfl
    · exact hw
  | @cons tx tx' ds _ _ ih =>
    have hticked : s.ticked.tx = tx.advance.withPolarity (!b) := by
      rw [← tick_withPolarity, ← htx]
      rfl
    have hrate : tx.advance.rate = tx.rate := by
      obtain ⟨-, hrate, -⟩ := tx.tick_keeps
      exact hrate
    have hduration : s.tx.duration (timingRow s.params.timing s.tx.rate) = tx.duration w := by
      rw [htx, ← hw]
      rfl
    obtain ⟨u, hrun, hend⟩ := ih (s := s.ticked) hticked (hrate ▸ hw)
    refine ⟨u, ?_, hend⟩
    rw [List.length_cons, transmitN_succ, hrun, hduration]
    rfl

end

theorem transmitN_add {m n : Nat} {s t u : State} {ds es : List U32} (h : transmitN m s = some (ds, t))
    (h' : transmitN n t = some (es, u)) : transmitN (m + n) s = some (ds ++ es, u) := by
  induction m generalizing s ds with
  | zero =>
    cases h
    rwa [Nat.zero_add]
  | succ m ih =>
    rw [transmitN_succ] at h
    obtain ⟨⟨ds', t'⟩, hrun, heq⟩ := Option.map_eq_some_iff.1 h
    cases heq
    rw [Nat.succ_add, transmitN_succ, ih hrun]
    rfl

/-- An idle engine returns the one duration for ever (44_transmit_engine.md R184). -/
theorem transmitN_of_idle (n : Nat) {s : State} (hs : s.tx.state = .idle) : ∃ u : State,
    transmitN n s = some (List.replicate n (timingRow s.params.timing s.tx.rate).one, u) ∧
      u.tx.state = .idle := by
  induction n generalizing s with
  | zero => exact ⟨s, rfl, hs⟩
  | succ n ih =>
    have hticked : s.ticked.tx = s.tx.withPolarity (!s.tx.polarity) :=
      congrArg (TransmitEngine.withPolarity · _) (TransmitEngine.advance_of_idle hs)
    obtain ⟨u, hrun, hu⟩ := ih (s := s.ticked) (by rw [hticked]; exact hs)
    refine ⟨u, ?_, hu⟩
    rw [transmitN_succ, hrun, TransmitEngine.duration_of_idle _ hs, hticked]
    rfl

/-! ### The bits of a frame -/

/-- The bits of a byte below bit `n`, from the highest. -/
def lowBits (b : Byte) : Nat → List Bool
  | 0 => []
  | n + 1 => b.getLsbD n :: lowBits b n

/-- The bits of a byte on the wire: the start bit, then bits 7 to 0 (30_encoding.md R61). -/
def wireBits (b : Byte) : List Bool := false :: lowBits b 8

/-- The bits of a frame before its stop bit. -/
def headBits (preamble : Nat) (p : List Byte) : List Bool :=
  List.replicate preamble true ++ p.flatMap wireBits

/-- The durations of a frame before its stop bit are those of its bits. -/
theorem frameHead_eq_map (w : TimingRow) (preamble : Nat) (p : List Byte) :
    frameHead w preamble p = (headBits preamble p).map (bitDuration w) := by
  rw [frameHead, headBits, List.map_append, List.map_replicate, List.map_flatMap]
  rfl

theorem headBits_length (preamble : Nat) (p : List Byte) :
    (headBits preamble p).length = preamble + 9 * p.length := by
  have hbyte : ∀ b : Byte, (wireBits b).length = 9 := fun _ => rfl
  simp only [headBits, List.length_append, List.length_replicate, List.length_flatMap, hbyte,
    List.map_const', List.sum_replicate, smul_eq_mul, Nat.mul_comm]

theorem frameHead_length (w : TimingRow) (preamble : Nat) (p : List Byte) :
    (frameHead w preamble p).length = preamble + 9 * p.length := by
  rw [frameHead_eq_map, List.length_map, headBits_length]

theorem frameDurations_length (w : TimingRow) (preamble : Nat) (p : List Byte) (acks : Nat) :
    (frameDurations w preamble p acks).length = preamble + 9 * p.length + 1 + acks := by
  rw [frameDurations, List.length_append, List.length_append, frameHead_length, List.length_replicate,
    List.length_singleton]

/-- A list of bytes is read byte by byte. -/
theorem map_byteAt_range (p : List Byte) : (List.range p.length).map (byteAt p) = p := by
  refine List.ext_getElem (by simp) fun i hi hi' => ?_
  rw [List.getElem_map, List.getElem_range, byteAt, List.getD_eq_getElem _ _ hi']

/-! ### The phases -/

section

variable (w : TimingRow) {tx : TransmitEngine}

/-- The engine after `i` bits of the preamble: in `Preamble` while there are more (44_transmit_engine.md
R185). -/
def TransmitEngine.atPreamble (tx : TransmitEngine) (i : Nat) : TransmitEngine :=
  { tx with
    preCount := BitVec.ofNat 8 i, byteIdx := 0, bitIdx := 8,
    state := if i < tx.numPreamble.toNat then .preamble else .packet }

/-- The engine before byte `i`, its start bit pending: in `Packet` while there are more
(44_transmit_engine.md R186). -/
def TransmitEngine.atByte (tx : TransmitEngine) (i : Nat) : TransmitEngine :=
  { tx with byteIdx := i, bitIdx := 8, state := if i < tx.pkt.length then .packet else .packetEnd }

/-- The engine after `i` ackreqs: in `AckReq` while there are more (44_transmit_engine.md R188). -/
def TransmitEngine.atAckreq (tx : TransmitEngine) (i : Nat) : TransmitEngine :=
  { tx with
    ackCount := BitVec.ofNat 8 i, state := if i < tx.numAckreq.toNat then .ackReq else .idle }

theorem TransmitEngine.sends_preambleBit {i : Nat} (hi : i < tx.numPreamble.toNat) :
    (tx.atPreamble i).Sends w [w.one] (tx.atPreamble (i + 1)) := by
  have hs : (tx.atPreamble i).state = .preamble := if_pos hi
  have hcount : (tx.atPreamble i).preCount + 1 = BitVec.ofNat 8 (i + 1) := (BitVec.ofNat_add ..).symm
  have hnat : (BitVec.ofNat 8 (i + 1)).toNat = i + 1 :=
    (BitVec.toNat_ofNat ..).trans (Nat.mod_eq_of_lt (by omega))
  refine .single (by simp [hs]) (TransmitEngine.duration_of_preamble w hs)
    ((TransmitEngine.advance_of_preamble hs).trans ?_)
  by_cases hmore : i + 1 < tx.numPreamble.toNat
  · rw [TransmitEngine.preambleTick_of_lt (by rw [hcount, hnat]; exact hmore), hcount]
    simp only [TransmitEngine.atPreamble, if_pos hi, if_pos hmore]
  · rw [TransmitEngine.preambleTick_of_le (by rw [hcount, hnat]; exact Nat.le_of_not_lt hmore), hcount]
    simp only [TransmitEngine.atPreamble, if_neg hmore]

theorem TransmitEngine.sends_preamble (tx : TransmitEngine) :
    (tx.atPreamble 0).Sends w (List.replicate tx.numPreamble.toNat w.one)
      (tx.atPreamble tx.numPreamble.toNat) := by
  have hphase := Sends.stages fun i hi => tx.sends_preambleBit w (i := i) hi
  rwa [← List.map_eq_flatMap, List.map_const', List.length_range] at hphase

/-- A tick in `Packet` with the start bit sent is a bit of the byte. -/
theorem TransmitEngine.sends_dataBit (hs : tx.state = .packet) {n : Nat} (hn : n < 8)
    (hbit : tx.bitIdx.val = n) {tx' : TransmitEngine} (htick : tx.packetTick = tx') :
    tx.Sends w [bitDuration w ((byteAt tx.pkt tx.byteIdx).getLsbD n)] tx' := by
  subst hbit
  exact .single (by simp [hs])
    (TransmitEngine.duration_of_dataBit w hs (bitIdx_eq_eight_iff.not.1 (Nat.ne_of_lt hn)))
    ((TransmitEngine.advance_of_packet hs).trans htick)

/-- The last bit of a byte leaves the engine before the next byte. -/
theorem TransmitEngine.packetTick_eq_atByte (hs : tx.state = .packet) (hbit : tx.bitIdx = 0)
    (hbyte : tx.byteIdx < tx.pkt.length) : tx.packetTick = tx.atByte (tx.byteIdx + 1) := by
  rw [TransmitEngine.packetTick_of_lastBit hs hbit, TransmitEngine.atByte]
  by_cases hlast : tx.byteIdx + 1 = tx.pkt.length
  · rw [if_pos hlast, if_neg hlast.not_lt]
  · rw [if_neg hlast, if_pos (by omega)]

/-- The bits from bit `n` down to bit 0, which ends the byte. -/
theorem TransmitEngine.sends_lowBits (hs : tx.state = .packet) (hbyte : tx.byteIdx < tx.pkt.length) {n : Nat}
    (hn : n < 8) (hbit : tx.bitIdx.val = n) :
    tx.Sends w ((lowBits (byteAt tx.pkt tx.byteIdx) (n + 1)).map (bitDuration w))
      (tx.atByte (tx.byteIdx + 1)) := by
  induction n generalizing tx with
  | zero =>
    exact sends_dataBit w hs hn hbit (packetTick_eq_atByte hs (bitIdx_eq_zero_iff.1 hbit) hbyte)
  | succ n ih =>
    have hmiddle := sends_dataBit w hs hn hbit (packetTick_of_middleBit
      (bitIdx_eq_eight_iff.not.1 (by omega)) (bitIdx_eq_zero_iff.not.1 (by omega)))
    have hrest := ih (tx := { tx with bitIdx := ⟨tx.bitIdx.val - 1, by omega⟩ }) hs hbyte (by omega)
      (Nat.sub_eq_of_eq_add hbit)
    exact hmiddle.append hrest

theorem TransmitEngine.sends_byte {i : Nat} (hi : i < tx.pkt.length) :
    (tx.atByte i).Sends w (byteDurations w (byteAt tx.pkt i)) (tx.atByte (i + 1)) := by
  have hs : (tx.atByte i).state = .packet := if_pos hi
  have hstart : (tx.atByte i).Sends w [w.zero] { tx.atByte i with bitIdx := 7 } :=
    .single (by simp [hs]) (duration_of_startBit w hs rfl)
      ((advance_of_packet hs).trans (packetTick_of_startBit rfl))
  have hbits := sends_lowBits w (tx := { tx.atByte i with bitIdx := 7 }) hs hi (n := 7) (by decide) rfl
  exact hstart.append hbits

theorem TransmitEngine.sends_bytes (tx : TransmitEngine) :
    (tx.atByte 0).Sends w (tx.pkt.flatMap (byteDurations w)) (tx.atByte tx.pkt.length) := by
  have hphase := Sends.stages fun i hi => tx.sends_byte w (i := i) hi
  rwa [← List.flatMap_map, map_byteAt_range] at hphase

theorem TransmitEngine.sends_stopBit (hs : tx.state = .packetEnd) :
    tx.Sends w [w.one] (tx.atAckreq 0) :=
  .single (by simp [hs]) (TransmitEngine.duration_of_packetEnd w hs)
    ((TransmitEngine.advance_of_packetEnd hs).trans tx.packetEndTick_eq)

theorem TransmitEngine.sends_ackreq {i : Nat} (hi : i < tx.numAckreq.toNat) :
    (tx.atAckreq i).Sends w [w.ackreq] (tx.atAckreq (i + 1)) := by
  have hs : (tx.atAckreq i).state = .ackReq := if_pos hi
  have hcount : (tx.atAckreq i).ackCount + 1 = BitVec.ofNat 8 (i + 1) := (BitVec.ofNat_add ..).symm
  have hlast : BitVec.ofNat 8 (i + 1) = tx.numAckreq ↔ ¬ i + 1 < tx.numAckreq.toNat := by
    rw [← BitVec.toNat_inj, BitVec.toNat_ofNat, Nat.mod_eq_of_lt (by omega)]
    omega
  refine .single (by simp [hs]) (TransmitEngine.duration_of_ackReq w hs)
    ((TransmitEngine.advance_of_ackReq hs).trans ?_)
  rw [TransmitEngine.ackreqTick_eq hs, hcount]
  simp only [TransmitEngine.atAckreq, hlast, ite_not]

theorem TransmitEngine.sends_ackreqs (tx : TransmitEngine) :
    (tx.atAckreq 0).Sends w (List.replicate tx.numAckreq.toNat w.ackreq)
      (tx.atAckreq tx.numAckreq.toNat) := by
  have hphase := Sends.stages fun i hi => tx.sends_ackreq w (i := i) hi
  rwa [← List.map_eq_flatMap, List.map_const', List.length_range] at hphase

/-! ### The frame -/

/-- The engine with every byte of a loaded packet sent and the stop bit due. -/
def TransmitEngine.stopDue (tx : TransmitEngine) (p : List Byte) : TransmitEngine :=
  ((tx.load p).atPreamble tx.numPreamble.toNat).atByte p.length

theorem TransmitEngine.stopDue_state (tx : TransmitEngine) (p : List Byte) :
    (tx.stopDue p).state = .packetEnd := if_neg (Nat.lt_irrefl _)

/-- A loaded engine sends the preamble and the bytes. -/
theorem TransmitEngine.sends_frameHead (tx : TransmitEngine) {p : List Byte} (hp : 1 ≤ p.length) :
    (tx.load p).Sends w (frameHead w tx.numPreamble.toNat p) (tx.stopDue p) := by
  have hload : tx.load p = (tx.load p).atPreamble 0 := by
    rw [TransmitEngine.load_eq]
    rfl
  have hfirst : (tx.load p).atPreamble tx.numPreamble.toNat =
      ((tx.load p).atPreamble tx.numPreamble.toNat).atByte 0 := by
    have hpreamble : ¬ tx.numPreamble.toNat < (tx.load p).numPreamble.toNat := Nat.lt_irrefl _
    have hpacket : 0 < ((tx.load p).atPreamble tx.numPreamble.toNat).pkt.length := hp
    rw [TransmitEngine.atByte, if_pos hpacket, TransmitEngine.atPreamble, if_neg hpreamble]
  have hpreamble := (tx.load p).sends_preamble w
  have hbytes := ((tx.load p).atPreamble tx.numPreamble.toNat).sends_bytes w
  rw [← hload] at hpreamble
  rw [← hfirst] at hbytes
  exact hpreamble.append hbytes

/-- A loaded engine sends the whole frame. -/
theorem TransmitEngine.sends_frame (tx : TransmitEngine) {p : List Byte} (hp : 1 ≤ p.length) :
    (tx.load p).Sends w (frameDurations w tx.numPreamble.toNat p tx.numAckreq.toNat)
      ((tx.stopDue p).atAckreq tx.numAckreq.toNat) :=
  ((tx.sends_frameHead w hp).append (sends_stopBit w (tx.stopDue_state p))).append
    ((tx.stopDue p).sends_ackreqs w)

end

/-- What the engine that an accepted packet loads sends is what `tx_transmit` returns after it. -/
theorem transmitN_of_accepted {s s0 : State} {p : List Byte} (hexec : exec (.txPacket p) s = .next s0)
    (hres : s0.result = .bool true) {ds : List U32} {tx' : TransmitEngine}
    (hsends : (s.tx.load p).Sends (timingRow s.params.timing s.tx.rate) ds tx') :
    ∃ u, transmitN ds.length s0 = some (ds, u) ∧ u.tx.state = tx'.state ∧
      timingRow u.params.timing u.tx.rate = timingRow s.params.timing s.tx.rate := by
  obtain ⟨-, htx, hparams⟩ := exec_txPacket_accepted hexec hres
  refine hsends.transmitN (b := s.tx.polarity) htx ?_
  rw [hparams]
  rfl

/-- Settles O45: the frame's durations, then those of the idle line; before each of the frame's durations
the engine is not idle. -/
theorem transmitEmitsTheFrame : Obligations.TransmitEmitsTheFrame := by
  intro s s0 p extra hexec hres w frame
  obtain ⟨⟨hpos, -⟩, -⟩ := exec_txPacket_accepted hexec hres
  have hframe := s.tx.sends_frame w hpos
  refine ⟨frameDurations_length .., ?_, fun n hn => ?_⟩
  · obtain ⟨u, hrun, hstate, hrow⟩ := transmitN_of_accepted hexec hres hframe
    obtain ⟨v, hrest, hidle⟩ := transmitN_of_idle extra (hstate.trans (if_neg (Nat.lt_irrefl _)))
    rw [hrow] at hrest
    exact ⟨v, transmitN_add hrun hrest, hidle⟩
  · obtain ⟨tx', hsends, hbusy⟩ := hframe.take hn
    obtain ⟨v, hrun, hstate, -⟩ := transmitN_of_accepted hexec hres hsends
    rw [List.length_take_of_le hn.le] at hrun
    exact ⟨_, v, hrun, hstate ▸ hbusy⟩

end Sys2Proof.Machine
end

section
/-!
PROOF. The round trip (44_transmit_engine.md R192): each duration of a frame is classified as the symbol of
its bit, the ReceiveEngine that takes those symbols collects the packet byte by byte, and the stop bit
queues it.
-/

namespace Sys2Proof.Machine

/-! ### The symbols of the bits (40_timing_classifier.md R100) -/

def bitSymbol (b : Bool) : Symbol := if b then .one else .zero

theorem bitSymbol_ne_ackreq (b : Bool) : bitSymbol b ≠ .ackreq := by cases b <;> decide

theorem bitSymbol_zero_or_one (b : Bool) : bitSymbol b = .zero ∨ bitSymbol b = .one := by
  cases b
  · exact .inl rfl
  · exact .inr rfl

theorem decide_bitSymbol_eq_one (b : Bool) : decide (bitSymbol b = .one) = b := by cases b <;> rfl

section

variable {tm : Timing}

/-- Conditions 1 and 2 of 00_scope.md R6 for each row. -/
theorem timingWellFormed_row (h : timingWellFormed tm = true) (r : Rate) :
    rowSound (timingRow tm r) = true ∧ rowSeparate (timingRow tm r) tm.fallback = true := by
  have hr : r ∈ allRates := by cases r <;> decide
  simpa only [Bool.and_eq_true] using List.all_eq_true.1 h r hr

/-- The duration of a bit, of the receiver's row or of the fallback row, is received as the bit. -/
theorem classify_bitDuration (h : timingWellFormed tm = true) {r r' : Rate} (hr : r = r' ∨ r' = .fallback)
    (b : Bool) : classify tm (bitDuration (timingRow tm r') b) r = bitSymbol b := by
  obtain ⟨hsound, hseparate⟩ := timingWellFormed_row h r
  obtain ⟨hsound0, hseparate0⟩ := timingWellFormed_row h .fallback
  simp only [rowSound, rowSeparate, Bool.and_eq_true, Bool.not_eq_true', timingRow]
    at hsound hseparate hsound0 hseparate0
  rcases hr with rfl | rfl <;> cases b <;>
    simp [classify, bitDuration, bitSymbol, timingRow, hsound, hseparate, hsound0, hseparate0]

end

/-! ### A run of bits -/

/-- The ReceiveEngine after the symbols of the bits, in order. -/
def ReceiveEngine.consumeBits (k : Params) (bits : List Bool) (rx : ReceiveEngine) : ReceiveEngine :=
  bits.foldl (fun rx b => rx.consume k (bitSymbol b)) rx

theorem ReceiveEngine.consumeBits_cons (k : Params) (b : Bool) (bits : List Bool) (rx : ReceiveEngine) :
    rx.consumeBits k (b :: bits) = (rx.consume k (bitSymbol b)).consumeBits k bits := rfl

theorem ReceiveEngine.consumeBits_append (k : Params) (bits bits' : List Bool) (rx : ReceiveEngine) :
    rx.consumeBits k (bits ++ bits') = (rx.consumeBits k bits).consumeBits k bits' := List.foldl_append

/-- A time that is classified as the symbol of a bit is received as that bit. -/
theorem exec_rxReceive_of_bit {s : State} {t : U32} {b : Bool}
    (h : classify s.params.timing t s.rx.transferRate = bitSymbol b) :
    exec (.rxReceive t) s =
      .next { s with rx := s.rx.consume s.params (bitSymbol b), result := .none } := by
  rw [receiveRunsTheClassifiedSymbol, h]
  exact exec_symbolInstr_of_consume t (bitSymbol_ne_ackreq b) rfl

/-- Times that are classified as the symbols of bits are received as those bits. -/
theorem execAll_rxReceive_of_bits {s : State} {w : TimingRow}
    (h : ∀ b, classify s.params.timing (bitDuration w b) s.rx.transferRate = bitSymbol b)
    (bits : List Bool) : ∃ res, execAll ((bits.map (bitDuration w)).map .rxReceive) s =
      .next { s with rx := s.rx.consumeBits s.params bits, result := res } := by
  induction bits generalizing s with
  | nil => exact ⟨s.result, rfl⟩
  | cons b bits ih =>
    have hrate : (s.rx.consume s.params (bitSymbol b)).transferRate = s.rx.transferRate :=
      congrArg Settings.transferRate (s.rx.consume_settings _ _)
    rw [List.map_cons, List.map_cons, execAll_cons_of_next (exec_rxReceive_of_bit (h b))]
    exact ih fun b' => by
      dsimp only
      rw [hrate, h b']

/-! ### The preamble (42_receive_engine.md R124) -/

section

variable {k : Params} {rx : ReceiveEngine}

theorem ReceiveEngine.consumeBits_preamble (hs : rx.state = .preamble) (n : Nat) :
    rx.consumeBits k (List.replicate n true) =
      { rx with bitCount := BitVec.ofNat 8 (min (rx.bitCount.toNat + n) 255) } := by
  induction n with
  | zero =>
    have hsame : min (rx.bitCount.toNat + 0) 255 = rx.bitCount.toNat := by omega
    rw [hsame, BitVec.ofNat_toNat, BitVec.setWidth_eq]
    rfl
  | succ n ih =>
    have hcount : (BitVec.ofNat 8 (min (rx.bitCount.toNat + n) 255)).toNat =
        min (rx.bitCount.toNat + n) 255 := (BitVec.toNat_ofNat ..).trans (Nat.mod_eq_of_lt (by omega))
    have hnext : min (min (rx.bitCount.toNat + n) 255 + 1) 255 = min (rx.bitCount.toNat + (n + 1)) 255 := by
      omega
    rw [List.replicate_succ', consumeBits_append, ih]
    change ReceiveEngine.consume k .one _ = _
    rw [consume_one_of_preamble (by exact hs), hcount, hnext]

/-! ### The bytes (42_receive_engine.md R125, R126) -/

/-- The engine with the bytes `q` received and the bits of `b` from bit `n` up shifted in. -/
def ReceiveEngine.inByte (rx : ReceiveEngine) (q : List Byte) (b : Byte) (n : Nat) : ReceiveEngine :=
  { rx with
    state := .data, active := true, bitCount := BitVec.ofNat 8 (8 - n), acc := b >>> n,
    buf := q, crc8 := crc8Of q, crc32 := crc32Of q }

/-- The engine with the bytes `q` received and the bit after them due. -/
def ReceiveEngine.afterBytes (rx : ReceiveEngine) (q : List Byte) : ReceiveEngine :=
  { rx with
    state := .endBit, active := true, bitCount := 0, acc := 0,
    buf := q, crc8 := crc8Of q, crc32 := crc32Of q }

/-- Enough ones and a start bit begin the first byte. -/
theorem ReceiveEngine.consumeBits_preamble_startBit (hs : rx.state = .preamble) {n : Nat}
    (hn : k.preambleMin ≤ n) (hmax : n ≤ 255) (b : Byte) :
    rx.consumeBits k (List.replicate n true ++ [false]) = rx.inByte [] b 8 := by
  have hcount : k.preambleMin ≤ (BitVec.ofNat 8 (min (rx.bitCount.toNat + n) 255)).toNat := by
    rw [BitVec.toNat_ofNat, Nat.mod_eq_of_lt (by omega)]
    omega
  have hacc : b >>> 8 = 0 := by bv_omega
  rw [consumeBits_append, consumeBits_preamble hs, inByte, hacc]
  exact consume_zero_of_preambleMin_le hs hcount

/-- A start bit after a byte begins the next one. -/
theorem ReceiveEngine.consume_zero_afterBytes (q : List Byte) (b : Byte) :
    (rx.afterBytes q).consume k .zero = rx.inByte q b 8 := by
  have hacc : b >>> 8 = 0 := by bv_omega
  rw [inByte, hacc]
  exact consume_zero_of_endBit k rfl

/-- Shifting in a bit of a byte below those that are shifted in. -/
theorem shiftLeft_one_or_getLsbD (b : Byte) (n : Nat) :
    (b >>> (n + 1)) <<< 1 ||| (if b.getLsbD n then 1#8 else 0#8) = b >>> n := by
  ext i hi
  cases i with
  | zero => cases hbit : b.getLsbD n <;> simp [hbit]
  | succ i =>
    have hnext : n + 1 + i = n + (i + 1) := by omega
    cases b.getLsbD n <;> simp [hnext]

theorem ReceiveEngine.shiftBit_inByte (q : List Byte) (b : Byte) {n : Nat} (hn : n < 8) :
    (rx.inByte q b (n + 1)).shiftBit (b.getLsbD n) = rx.inByte q b n := by
  have hcount : BitVec.ofNat 8 (8 - (n + 1)) + 1 = BitVec.ofNat 8 (8 - n) :=
    (BitVec.ofNat_add (8 - (n + 1)) 1).symm.trans (congrArg _ (by omega))
  simp only [shiftBit, inByte, shiftLeft_one_or_getLsbD, hcount]

/-- A data symbol on the count of 7 completes its byte. -/
theorem ReceiveEngine.consume_of_data_of_count_eq {sym : Symbol} (hs : rx.state = .data)
    (hcount : rx.bitCount = 7) (hsym : sym = .zero ∨ sym = .one) :
    rx.consume k sym = (rx.shiftBit (decide (sym = .one))).completeByte k := by
  have hfull : (rx.shiftBit (decide (sym = .one))).bitCount = 8 := by
    rw [shiftBit, hcount]
    rfl
  rw [consume_of_data hs, dataHandler, if_neg fun h => hsym.elim h.1 h.2]
  exact if_pos hfull

/-- The bits of `b` below bit `n + 1` complete the byte. -/
theorem ReceiveEngine.consumeBits_lowBits {q : List Byte} (hq : q.length ≠ k.pktCap) (b : Byte) {n : Nat}
    (hn : n < 8) : (rx.inByte q b (n + 1)).consumeBits k (lowBits b (n + 1)) = rx.afterBytes (q ++ [b]) := by
  have hsymbol := bitSymbol_zero_or_one (b.getLsbD n)
  induction n with
  | zero =>
    rw [lowBits, consumeBits_cons, consume_of_data_of_count_eq rfl rfl hsymbol, decide_bitSymbol_eq_one,
      shiftBit_inByte q b hn]
    rcases (rx.inByte q b 0).completeByte_cases k with ⟨hfull, -⟩ | ⟨-, heq⟩
    · exact absurd hfull hq
    · have hbyte : (rx.inByte q b 0).acc = b := BitVec.ushiftRight_zero b
      rw [heq, hbyte, afterBytes, crc8Of_append_singleton, crc32Of_append_singleton]
      rfl
  | succ n ih =>
    have hcount : (rx.inByte q b (n + 1 + 1)).bitCount.toNat ≤ 6 := by
      rw [inByte, BitVec.toNat_ofNat]
      omega
    rw [lowBits, consumeBits_cons, consume_of_data_of_count_le k rfl hcount hsymbol, decide_bitSymbol_eq_one,
      shiftBit_inByte q b hn]
    exact ih (by omega) (bitSymbol_zero_or_one _)

/-- Bytes that fit the buffer are appended to those received. -/
theorem ReceiveEngine.consumeBits_bytes {q p : List Byte} (hfit : q.length + p.length ≤ k.pktCap) :
    (rx.afterBytes q).consumeBits k (p.flatMap wireBits) = rx.afterBytes (q ++ p) := by
  induction p generalizing q with
  | nil => rw [List.append_nil]; rfl
  | cons b p ih =>
    rw [List.length_cons] at hfit
    have hbyte : (rx.afterBytes q).consumeBits k (wireBits b) = rx.afterBytes (q ++ [b]) := by
      rw [wireBits, consumeBits_cons]
      exact (congrArg _ (consume_zero_afterBytes q b)).trans (consumeBits_lowBits (by omega) b (by decide))
    rw [List.flatMap_cons, consumeBits_append, hbyte, ih, List.append_assoc, List.singleton_append]
    rw [List.length_append, List.length_singleton]
    omega

/-- From `Preamble`, enough ones and the bytes of a packet that fits leave the packet received. -/
theorem ReceiveEngine.consumeBits_headBits (hs : rx.state = .preamble) {n : Nat} (hn : k.preambleMin ≤ n)
    (hmax : n ≤ 255) {p : List Byte} (hpos : 1 ≤ p.length) (hfit : p.length ≤ k.pktCap) :
    rx.consumeBits k (headBits n p) = rx.afterBytes p := by
  cases p with
  | nil => exact absurd hpos (by decide)
  | cons b p =>
    rw [List.length_cons] at hfit
    have hsplit : headBits n (b :: p) =
        List.replicate n true ++ [false] ++ (lowBits b 8 ++ p.flatMap wireBits) := by
      simp [headBits, wireBits]
    have hroom : ([] : List Byte).length ≠ k.pktCap := by
      rw [List.length_nil]
      omega
    rw [hsplit, consumeBits_append, consumeBits_preamble_startBit hs hn hmax b, consumeBits_append,
      consumeBits_lowBits hroom b (by decide), List.nil_append,
      consumeBits_bytes (by rw [List.length_singleton]; omega), List.singleton_append]

/-! ### The stop bit (42_receive_engine.md R127 to R129) -/

/-- A long enough packet with a right trailer is queued when there is room. -/
theorem ReceiveEngine.stopBit_queue {p : List Byte} (hmin : k.pktMin ≤ p.length)
    (hroom : 2 ≤ k.queueCap - rx.queue.length) (htrailer : trailerOk k p = true) :
    ((rx.afterBytes p).stopBit k).queue = rx.queue ++ [p] := by
  have hqueued : ((rx.afterBytes p).validate k).queued = true := by
    rw [validate_of_room (rx := rx.afterBytes p) hmin hroom, checksumVerdict_queued]
    change (!if isCrc32Class k (commandWord p) then decide (crc32Of p ≠ 0)
      else decide (crc8Of p ≠ 0)) = true
    unfold trailerOk at htrailer
    split at htrailer <;> simp [*, beq_iff_eq.1 htrailer]
  rw [stopBit_eq, if_pos hqueued]
  rfl

end

/-! ### The round trip -/

/-- After an accepted packet the sender's ticks return the frame up to its stop bit, then the stop bit. -/
theorem exec_txPacket_sends {s s0 : State} {p : List Byte} (hexec : exec (.txPacket p) s = .next s0)
    (hres : s0.result = .bool true) :
    let w := timingRow s.params.timing s.tx.rate
    ∃ u, transmitN (s.tx.numPreamble.toNat + 9 * p.length) s0 =
        some (frameHead w s.tx.numPreamble.toNat p, u) ∧ u.ticked.result = .word w.one := by
  intro w
  obtain ⟨⟨hpos, -⟩, -⟩ := exec_txPacket_accepted hexec hres
  obtain ⟨u, hrun, hstate, hrow⟩ := transmitN_of_accepted hexec hres (s.tx.sends_frameHead w hpos)
  rw [frameHead_length] at hrun
  refine ⟨u, hrun, ?_⟩
  rw [State.ticked, TransmitEngine.duration_of_packetEnd _ (hstate.trans (s.tx.stopDue_state p)), hrow]

/-- A ReceiveEngine in `Preamble` that classifies the durations as their bits receives a frame up to its
stop bit: the packet is in the buffer. -/
theorem execAll_rxReceive_frameHead {s : State} {w : TimingRow} {n : Nat} {p : List Byte}
    (hbits : ∀ b, classify s.params.timing (bitDuration w b) s.rx.transferRate = bitSymbol b)
    (hs : s.rx.state = .preamble) (hn : s.params.preambleMin ≤ n) (hmax : n ≤ 255) (hpos : 1 ≤ p.length)
    (hfit : p.length ≤ s.params.pktCap) :
    ∃ res, execAll ((frameHead w n p).map .rxReceive) s =
      .next { s with rx := s.rx.afterBytes p, result := res } := by
  rw [frameHead_eq_map, ← ReceiveEngine.consumeBits_headBits hs hn hmax hpos hfit]
  exact execAll_rxReceive_of_bits hbits _

/-- Settles O46: the sender's durations before the stop bit are the frame's bits, which the receiver takes
as those bits; the stop bit is a one. -/
theorem transmitReceiveRoundTrip : Obligations.TransmitReceiveRoundTrip := by
  intro a a0 d p hexec hres hparams htiming hpreamble hs hrate
  obtain ⟨⟨hpos, hfit⟩, -⟩ := exec_txPacket_accepted hexec hres
  obtain ⟨a1, hrun, hlast⟩ := exec_txPacket_sends hexec hres
  rw [← hparams] at htiming hpreamble hfit hrun hlast ⊢
  have hbits := classify_bitDuration htiming hrate
  obtain ⟨res, hreceive⟩ := execAll_rxReceive_frameHead hbits hs hpreamble (by omega) hpos hfit
  have hstop := exec_rxReceive_of_bit (b := true)
    (s := { d with rx := d.rx.afterBytes p, result := res }) (hbits true)
  refine ⟨_, _, a1, _, _, _, hrun, exec_txTransmit a1, hlast, hreceive, rfl, rfl, rfl, hstop,
    fun hmin hcap hempty htrailer => ?_⟩
  have hroom : 2 ≤ d.params.queueCap - d.rx.queue.length := by simpa [hempty] using hcap
  have hqueue := ReceiveEngine.stopBit_queue hmin hroom htrailer
  rw [hempty, List.nil_append] at hqueue
  exact hqueue

end Sys2Proof.Machine
end

section
/-!
PROOF. The Arbitration responder (45_arbitration.md R210 to R218): a position code, read as a number, is its
range and its bit index; and no code examines the top bit of the identifier.
-/

namespace Sys2Proof.Machine

/-! ### `arb_respond` and the class of its code (R211) -/

theorem exec_arbRespond (pos : Byte) (s : State) :
    exec (.arbRespond pos) s = exec (positionInstr (positionOfByte pos)) s := by
  rw [exec_positionInstr]
  exact execArbRespond_eq pos s

/-- Settles O9: what decodes from the byte is the instruction of its class. -/
theorem arbRespondRunsThePositionCode : Obligations.ArbRespondRunsThePositionCode := by
  intro s pos i hdec
  obtain ⟨b, hb, rfl⟩ := decodePosition_eq_ok_iff.1 hdec
  obtain rfl : pos = b := List.singleton_inj.1 hb
  exact exec_arbRespond pos s

/-! ### Ranges of position codes -/

theorem positionByte_toNat (op : BitVec 2) (i : BitVec 6) :
    (positionByte op i).toNat = 64 * op.toNat + i.toNat := by
  rw [positionByte, BitVec.toNat_append, ← Nat.shiftLeft_add_eq_or_of_lt i.isLt, Nat.shiftLeft_eq,
    Nat.mul_comm]

theorem eq_positionByte_of_toNat {pos : Byte} {op : BitVec 2} {i : BitVec 6}
    (h : pos.toNat = 64 * op.toNat + i.toNat) : pos = positionByte op i :=
  BitVec.eq_of_toNat_eq (h.trans (positionByte_toNat op i).symm)

/-- The four ranges of examining codes: bits 7 and 6 give the class, the rest is the bit index. -/
theorem positionOfByte_of_range {pos : Byte} (op : BitVec 2) {j : Nat} (hj : j ≤ 62)
    (h : pos.toNat = 64 * op.toNat + j) :
    ∃ i : BitVec 6, i ≠ 63 ∧ i.toNat = j ∧ positionOfByte pos =
      if op = 0 then .readBit i else if op = 1 then .readComplement i
      else if op = 2 then .pruneSet i else .pruneClear i := by
  have hidx : (BitVec.ofNat 6 j).toNat = j := Nat.mod_eq_of_lt (by omega)
  have hne : BitVec.ofNat 6 j ≠ 63 := by
    intro htop
    rw [htop, show (63 : BitVec 6).toNat = 63 from rfl] at hidx
    omega
  refine ⟨_, hne, hidx, ?_⟩
  rw [← positionOfByte_of_ne_63 op hne, ← eq_positionByte_of_toNat (h.trans (by rw [hidx]))]

/-- The codes between the ranges. -/
theorem positionOfByte_of_gap {pos : Byte} {op : BitVec 2} (hop : op ≠ 3)
    (h : pos.toNat = 64 * op.toNat + 63) : positionOfByte pos = .noop op := by
  rw [eq_positionByte_of_toNat (i := 63) h]
  exact positionOfByte_of_ne_3 hop

theorem positionOfByte_ne_newRound {pos : Byte} (h : pos ≠ 255) : positionOfByte pos ≠ .newRound := by
  rw [positionOfByte, if_neg h]
  split_ifs <;> exact nofun

/-! ### The answer by range (R212 to R218) -/

/-- A silenced responder stays silent until a new round (R213). -/
theorem ReceiveEngine.arbitrate_of_silenced {rx : ReceiveEngine} {code : PositionCode}
    (h : rx.arbIgnore = true) (hcode : code ≠ .newRound) :
    rx.arbIgnoreAfter code = true ∧ rx.arbAnswer code = false := by
  cases code with
  | newRound => exact absurd rfl hcode
  | noop => exact ⟨h, rfl⟩
  | readBit | readComplement => exact ⟨h, by simp [arbAnswer, h]⟩
  | pruneSet | pruneClear => exact ⟨by simp [arbIgnoreAfter, h], rfl⟩

/-- A heard code of range `op` at bit index `j`: the two reads answer, the two prunes silence (R214 to
R217). -/
theorem exec_arbRespond_of_range {s : State} (heard : s.rx.arbIgnore = false) {pos : Byte} (op : BitVec 2)
    {j : Nat} (hj : j ≤ 62) (h : pos.toNat = 64 * op.toNat + j) :
    let bit := (s.rx.decoderId ++ s.rx.serialNumber).getLsbD j
    exec (.arbRespond pos) s = .next { s with
      rx := { s.rx with arbIgnore := if op = 2 then bit else if op = 3 then !bit else false }
      result := .bool (if op = 0 then bit else if op = 1 then !bit else false) } := by
  obtain ⟨i, hne, rfl, hcode⟩ := positionOfByte_of_range op hj h
  obtain ⟨-, -, -, hclasses⟩ := positionClassesAnswer s i 0 hne (by decide)
  obtain ⟨hread, hcomplement, hset, hclear⟩ := hclasses heard
  have hops : ∀ o : BitVec 2, o = 0 ∨ o = 1 ∨ o = 2 ∨ o = 3 := by decide
  rw [exec_arbRespond, hcode]
  rcases hops op with rfl | rfl | rfl | rfl
  exacts [hread, hcomplement, hset, hclear]

/-- A heard code between the ranges (R218). -/
theorem exec_arbRespond_of_gap {s : State} (heard : s.rx.arbIgnore = false) {pos : Byte} {op : BitVec 2}
    (hop : op ≠ 3) (h : pos.toNat = 64 * op.toNat + 63) :
    exec (.arbRespond pos) s =
      .next { s with rx := { s.rx with arbIgnore := false }, result := .bool false } := by
  rw [exec_arbRespond, positionOfByte_of_gap hop h]
  exact exec_positionInstr_of_eq (code := .noop op) heard rfl

/-- Settles O38: 255 and the silenced responder first, then each range at its bit index. -/
theorem arbRespondFollowsThePositionRanges : Obligations.ArbRespondFollowsThePositionRanges := by
  intro s pos n bit answer
  refine ⟨fun hn => ?newRound, fun hn silent => ?silenced, fun heard =>
    ⟨fun hhi => ?readBit, fun hlo hhi => ?readComplement, fun hlo hhi => ?pruneSet,
      fun hlo hhi => ?pruneClear, fun hn => ?noop⟩⟩
  case newRound =>
    obtain rfl : pos = 255 := BitVec.eq_of_toNat_eq hn
    rfl
  case silenced =>
    have hcode := positionOfByte_ne_newRound fun h : pos = 255 => hn (congrArg BitVec.toNat h)
    obtain ⟨hignore, hanswer⟩ := ReceiveEngine.arbitrate_of_silenced silent hcode
    rw [exec_arbRespond]
    exact exec_positionInstr_of_eq hignore hanswer
  case readBit => exact exec_arbRespond_of_range heard 0 hhi (Nat.zero_add n).symm
  case readComplement =>
    exact exec_arbRespond_of_range heard 1 (Nat.sub_le_of_le_add hhi) (Nat.add_sub_of_le hlo).symm
  case pruneSet =>
    exact exec_arbRespond_of_range heard 2 (Nat.sub_le_of_le_add hhi) (Nat.add_sub_of_le hlo).symm
  case pruneClear =>
    exact exec_arbRespond_of_range heard 3 (Nat.sub_le_of_le_add hhi) (Nat.add_sub_of_le hlo).symm
  case noop =>
    rcases hn with h | h | h
    · exact exec_arbRespond_of_gap (op := 0) heard (by decide) h
    · exact exec_arbRespond_of_gap (op := 1) heard (by decide) h
    · exact exec_arbRespond_of_gap (op := 2) heard (by decide) h

/-! ### The top bit of the identifier (R210) -/

/-- The bit of the identifier that a class examines. -/
def PositionCode.examined : PositionCode → Option (BitVec 6)
  | .newRound | .noop _ => none
  | .readBit i | .readComplement i | .pruneSet i | .pruneClear i => some i

theorem examined_positionOfByte_ne_63 (pos : Byte) : (positionOfByte pos).examined ≠ some 63 := by
  unfold positionOfByte
  split_ifs with _ h63
  · exact nofun
  · exact nofun
  all_goals exact fun h => h63 (Option.some.inj h)

/-- The same engine with the top bit of its identifier inverted. -/
def ReceiveEngine.flipTop (rx : ReceiveEngine) : ReceiveEngine :=
  { rx with decoderId := rx.decoderId ^^^ 0x80000000#32 }

def State.flipTop (s : State) : State := { s with rx := s.rx.flipTop }

theorem ReceiveEngine.identBit_flipTop (rx : ReceiveEngine) {i : BitVec 6} (hi : i ≠ 63) :
    rx.flipTop.identBit i = rx.identBit i := by
  have hne : ¬ 31 = i.toNat - 32 := fun h => hi (BitVec.eq_of_toNat_eq (by
    rw [show (63 : BitVec 6).toNat = 63 from rfl]
    omega))
  have hmask : (0x80000000#32).getLsbD (i.toNat - 32) = false := by
    rw [show 0x80000000#32 = BitVec.twoPow 32 31 from rfl, BitVec.getLsbD_twoPow, decide_eq_false hne,
      Bool.and_false]
  rw [identBit, identBit, ident, ident, BitVec.getLsbD_append, BitVec.getLsbD_append, flipTop,
    BitVec.getLsbD_xor, hmask, Bool.xor_false]

theorem ReceiveEngine.arbitrate_flipTop (rx : ReceiveEngine) {code : PositionCode}
    (h : code.examined ≠ some 63) :
    rx.flipTop.arbIgnoreAfter code = rx.arbIgnoreAfter code ∧
      rx.flipTop.arbAnswer code = rx.arbAnswer code := by
  have hbit (i : BitVec 6) (hi : code.examined = some i) : rx.flipTop.identBit i = rx.identBit i :=
    rx.identBit_flipTop fun h63 => h (hi.trans (congrArg some h63))
  cases code with
  | newRound | noop => exact ⟨rfl, rfl⟩
  | readBit i | readComplement i =>
    refine ⟨rfl, ?_⟩
    rw [arbAnswer, arbAnswer, hbit i rfl]
    rfl
  | pruneSet i | pruneClear i =>
    refine ⟨?_, rfl⟩
    rw [arbIgnoreAfter, arbIgnoreAfter, hbit i rfl]
    rfl

/-- The response commutes with inverting a bit that its code does not examine. -/
theorem State.respond_flipTop (s : State) {code : PositionCode} (h : code.examined ≠ some 63) :
    s.flipTop.respond code = (s.respond code).flipTop := by
  obtain ⟨hignore, hanswer⟩ := s.rx.arbitrate_flipTop h
  rw [State.respond_eq, State.flipTop, hignore, hanswer]
  rfl

/-- The state after a run of position codes. -/
def State.respondAll (s : State) (codes : List Byte) : State :=
  codes.foldl (fun t pos => t.respond (positionOfByte pos)) s

theorem execAll_arbRespond (codes : List Byte) (s : State) :
    execAll (codes.map .arbRespond) s = .next (s.respondAll codes) := by
  induction codes generalizing s with
  | nil => rfl
  | cons pos codes ih =>
    have hpos : exec (.arbRespond pos) s = .next (s.respond (positionOfByte pos)) := execArbRespond_eq pos s
    rw [List.map_cons, execAll_cons_of_next hpos]
    exact ih _

theorem State.respondAll_flipTop (s : State) (codes : List Byte) :
    s.flipTop.respondAll codes = (s.respondAll codes).flipTop := by
  induction codes generalizing s with
  | nil => rfl
  | cons pos codes ih =>
    calc s.flipTop.respondAll (pos :: codes)
      _ = (s.flipTop.respond (positionOfByte pos)).respondAll codes := rfl
      _ = (s.respond (positionOfByte pos)).flipTop.respondAll codes := by
        rw [s.respond_flipTop (examined_positionOfByte_ne_63 pos)]
      _ = (s.respondAll (pos :: codes)).flipTop := ih _

/-- Settles O40: the second run is the first with the top bit inverted throughout. -/
theorem identifierTopBitIsNeverSeen : Obligations.IdentifierTopBitIsNeverSeen := by
  intro s codes
  refine ⟨s.respondAll codes, (s.respondAll codes).flipTop, execAll_arbRespond codes s, ?_, rfl, rfl⟩
  rw [← s.respondAll_flipTop codes]
  exact execAll_arbRespond codes s.flipTop

end Sys2Proof.Machine
end

section
/-!
PROOF. One pair written to the EntrySequenceDetector (46_entry_sequence.md R221 to R225): what the detector
makes of it in each case, and which pair can call a hook.
-/

namespace Sys2Proof.Machine

/-! ### The target of a first pair (R223, R224) -/

theorem relevantIndex_eq_true_iff {idx : U32} :
    relevantIndex idx = true ↔ idx = 7 ∨ idx = 104 ∨ idx = 105 := by
  simp [relevantIndex, or_assoc]

theorem ifRegistered_of_ne_nil {present : Bool} {c : HostCall} (h : ifRegistered present c ≠ []) :
    ifRegistered present c = [c] := by
  cases present with
  | false => exact absurd rfl h
  | true => rfl

section

variable {k : Params} {id : U32} {first : Byte} {target : List EntryPair} {hook : List HostCall}

theorem entryTarget_eq_some_iff :
    entryTarget k id first = some (target, hook) ↔
      (first = 0xFE ∧ target = k.seqZpp.toList ∧ hook = ifRegistered k.host.zppEntry .zppEntry) ∨
      (first = 0xFF ∧ target = (seqFwFor k id).toList ∧
        hook = ifRegistered k.host.zsuEntry .zsuEntry) := by
  constructor
  · unfold entryTarget
    split_ifs with hzpp hfw
    · rintro ⟨⟩
      exact .inl ⟨hzpp, rfl, rfl⟩
    · rintro ⟨⟩
      exact .inr ⟨hfw, rfl, rfl⟩
    · exact nofun
  · rintro (⟨rfl, rfl, rfl⟩ | ⟨rfl, rfl, rfl⟩) <;> rfl

theorem entryTarget_eq_none (hzpp : first ≠ 0xFE) (hfw : first ≠ 0xFF) :
    entryTarget k id first = none := by
  rw [entryTarget, if_neg hzpp, if_neg hfw]

/-! ### The comparison with the target (R223 to R225) -/

theorem head?_bind_entryTarget {buf : List EntryPair}
    (hfirst : buf.head?.map EntryPair.value = some first) :
    (buf.head?.bind fun p => entryTarget k id p.value) = entryTarget k id first := by
  obtain ⟨p, hp, rfl⟩ := Option.map_eq_some_iff.1 hfirst
  rw [hp, Option.bind_some]

/-- The comparison once the first pair has selected its target. -/
theorem entryMatch_of_target {buf : List EntryPair}
    (hfirst : buf.head?.map EntryPair.value = some first)
    (htarget : entryTarget k id first = some (target, hook)) :
    entryMatch k id buf = if buf ≠ target.take buf.length then ([], [])
      else if buf.length = target.length then ([], hook) else (buf, []) := by
  simp only [entryMatch, head?_bind_entryTarget hfirst, htarget]

theorem entryMatch_of_no_target {buf : List EntryPair}
    (hfirst : buf.head?.map EntryPair.value = some first)
    (htarget : entryTarget k id first = none) : entryMatch k id buf = ([], []) := by
  simp only [entryMatch, head?_bind_entryTarget hfirst, htarget]

end

/-! ### One pair (R220 to R222) -/

section

variable {k : Params} {es : EntryDetector} {p : EntryPair}

theorem EntryDetector.write_of_irrelevant (h : relevantIndex p.index = false) :
    es.write k p = ([], []) :=
  if_pos h

theorem EntryDetector.write_of_repeated (hrelevant : relevantIndex p.index = true)
    (hlast : es.buf.getLast?.map EntryPair.index = some p.index) : es.write k p = (es.buf, []) := by
  rw [write, hrelevant, if_neg (by decide), if_pos hlast]

theorem EntryDetector.write_of_recorded (hrelevant : relevantIndex p.index = true)
    (hlast : es.buf.getLast?.map EntryPair.index ≠ some p.index) :
    es.write k p = entryMatch k es.decoderId (es.buf ++ [p]) := by
  rw [write, hrelevant, if_neg (by decide), if_neg hlast]

/-- Calls are made only when the sequence with this pair is the target of some first value, and they are
that target's hook (R224, R225). -/
theorem EntryDetector.target_of_write_calls {buf : List EntryPair} {calls : List HostCall}
    (hwrite : es.write k p = (buf, calls)) (hcalls : calls ≠ []) :
    ∃ first, entryTarget k es.decoderId first = some (es.buf ++ [p], calls) := by
  rcases es.write_cases k p with ⟨-, heq⟩ | ⟨-, -, heq⟩ | ⟨-, -, heq⟩
  case inl | inr.inl => exact absurd (congrArg Prod.snd (hwrite.symm.trans heq)) hcalls
  have hmatch := heq.symm.trans hwrite
  rcases entryMatch_cases k es.decoderId (es.buf ++ [p]) with
    hcleared | ⟨target, hook, hselects, rfl, hcalled⟩ | ⟨_, _, -, -, -, hkept⟩
  case inl => exact absurd (congrArg Prod.snd (hmatch.symm.trans hcleared)) hcalls
  case inr.inr => exact absurd (congrArg Prod.snd (hmatch.symm.trans hkept)) hcalls
  obtain rfl : hook = calls := congrArg Prod.snd (hcalled.symm.trans hmatch)
  obtain ⟨q, -, hq⟩ := Option.bind_eq_some_iff.1 hselects
  exact ⟨q.value, hq⟩

end

/-- A pair that calls no hook changes the recorded sequence at most. -/
theorem exec_entryWrite_of_no_calls {s : State} {idx : U32} {val : Byte} {buf : List EntryPair}
    (h : s.es.write s.params ⟨idx, val⟩ = (buf, [])) :
    exec (.entryWrite idx val) s =
      .next { s with es := { s.es with buf := buf }, result := .none } := by
  rw [exec_entryWrite (p := ⟨idx, val⟩) h, State.entered, List.append_nil]

/-- Settles O48: the pair is recorded, and the comparison with the selected target decides. -/
theorem entryWriteMatchesTheTarget : Obligations.EntryWriteMatchesTheTarget := by
  intro s first target hook idx val hidx hlast now hfirst hselects
  have hrecorded : s.es.write s.params ⟨idx, val⟩ = entryMatch s.params s.es.decoderId now := by
    refine EntryDetector.write_of_recorded (relevantIndex_eq_true_iff.2 hidx) fun hrepeated => ?_
    obtain ⟨q, hq, heq⟩ := Option.map_eq_some_iff.1 hrepeated
    exact hlast q hq heq
  have hwrite := hrecorded.trans (entryMatch_of_target hfirst (entryTarget_eq_some_iff.2 hselects))
  refine ⟨fun hmismatch => ?mismatch, fun hprefix hshort => ?partly, fun hwhole => ?whole⟩
  case mismatch =>
    rw [if_pos hmismatch] at hwrite
    exact exec_entryWrite_of_no_calls hwrite
  case partly =>
    rw [if_neg (not_not.2 hprefix), if_neg hshort.ne] at hwrite
    exact exec_entryWrite_of_no_calls hwrite
  case whole =>
    have hprefix : now = target.take now.length := by rw [← hwhole, List.take_length]
    rw [if_neg (not_not.2 hprefix), if_pos (congrArg List.length hwhole)] at hwrite
    exact exec_entryWrite (p := ⟨idx, val⟩) hwrite

/-- Settles O50: a changed trace means a call, and a call means the whole target. -/
theorem hookOnlyOnTheWholeSequence : Obligations.HookOnlyOnTheWholeSequence := by
  intro s t idx val hexec htrace
  obtain ⟨buf, calls, hwrite⟩ : ∃ buf calls, s.es.write s.params ⟨idx, val⟩ = (buf, calls) :=
    ⟨_, _, rfl⟩
  obtain rfl : s.entered buf calls = t :=
    Host.Outcome.next.inj ((exec_entryWrite (p := ⟨idx, val⟩) hwrite).symm.trans hexec)
  have hcalls : calls ≠ [] := fun hnone =>
    htrace (by rw [State.entered, hnone, List.append_nil])
  obtain ⟨first, htarget⟩ := EntryDetector.target_of_write_calls hwrite hcalls
  rcases entryTarget_eq_some_iff.1 htarget with ⟨-, hwhole, rfl⟩ | ⟨-, hwhole, rfl⟩
  · exact .inl ⟨congrArg (s.trace ++ ·) (ifRegistered_of_ne_nil hcalls), hwhole⟩
  · exact .inr ⟨congrArg (s.trace ++ ·) (ifRegistered_of_ne_nil hcalls), hwhole⟩

/-- Settles O47: the irrelevant index and the repeated one are decided before the pair is recorded; a false
start selects no target. -/
theorem entryWriteClearsOrIgnores : Obligations.EntryWriteClearsOrIgnores := by
  intro s idx val
  refine ⟨fun ⟨h7, h104, h105⟩ => ?irrelevant, fun l q hidx hbuf hq => ?repeated, fun hempty hzpp hfw => ?falseStart⟩
  case irrelevant =>
    have hirrelevant : relevantIndex idx = false :=
      Bool.eq_false_iff.2 fun h => by
        rcases relevantIndex_eq_true_iff.1 h with h | h | h
        exacts [h7 h, h104 h, h105 h]
    exact exec_entryWrite_of_no_calls (EntryDetector.write_of_irrelevant hirrelevant)
  case repeated =>
    have hlast : s.es.buf.getLast?.map EntryPair.index = some idx := by simp [hbuf, hq]
    exact exec_entryWrite_of_no_calls
      (EntryDetector.write_of_repeated (relevantIndex_eq_true_iff.2 hidx) hlast)
  case falseStart =>
    have hwrite : s.es.write s.params ⟨idx, val⟩ = ([], []) := by
      cases hrelevant : relevantIndex idx with
      | false => exact EntryDetector.write_of_irrelevant hrelevant
      | true =>
        rw [EntryDetector.write_of_recorded hrelevant (by simp [hempty]), hempty]
        exact entryMatch_of_no_target rfl (entryTarget_eq_none hzpp hfw)
    exact exec_entryWrite_of_no_calls hwrite

end Sys2Proof.Machine
end

section
/-!
PROOF. A whole byte in Data (42_receive_engine.md R125): whatever the accumulator held, eight bits shift it
out, and what completes is the byte; beyond the capacity it restarts the machine (60_exceptions.md R245).
-/

namespace Sys2Proof.Machine

/-! ### A run of data symbols -/

theorem symbolInstr_bitSymbol (t : U32) (bit : Bool) :
    symbolInstr t (bitSymbol bit) = if bit then .symOne t else .symZero t := by cases bit <;> rfl

/-- The symbols of bits, at least one of them, are consumed in order and write nothing else. -/
theorem execAll_symbolInstr_of_bits (t : U32) (bit : Bool) (bits : List Bool) (s : State) :
    execAll ((bit :: bits).map fun c => symbolInstr t (bitSymbol c)) s =
      .next { s with rx := s.rx.consumeBits s.params (bit :: bits), result := .none } := by
  have hfirst : exec (symbolInstr t (bitSymbol bit)) s =
      .next { s with rx := s.rx.consume s.params (bitSymbol bit), result := .none } :=
    exec_symbolInstr_of_consume t (bitSymbol_ne_ackreq bit) rfl
  rw [List.map_cons, execAll_cons_of_next hfirst]
  cases bits with
  | nil => rfl
  | cons next rest => exact execAll_symbolInstr_of_bits t next rest _

/-! ### The accumulator -/

section

variable {rx : ReceiveEngine} {b : Byte} {n : Nat}

/-- Where the accumulator ends in the bits of `b` from `n + 1` up, it ends in those from `n` up once bit `n`
is shifted in; what stood above them is out of reach of both sides. -/
theorem ReceiveEngine.shiftBit_acc_shiftLeft (hacc : rx.acc <<< (n + 1) = b >>> (n + 1) <<< (n + 1)) :
    (rx.shiftBit (b.getLsbD n)).acc <<< n = b >>> n <<< n := by
  rw [← shiftLeft_one_or_getLsbD b n, ReceiveEngine.shiftBit]
  simp only [BitVec.shiftLeft_or_distrib, ← BitVec.shiftLeft_add, Nat.add_comm 1 n, hacc]

/-- The bits that are due of `b` complete it, whatever the accumulator holds above those that are in. -/
theorem ReceiveEngine.consumeBits_lowBits_of_data (k : Params) (hs : rx.state = .data) (hn : n < 8)
    (hcount : rx.bitCount = BitVec.ofNat 8 (7 - n))
    (hacc : rx.acc <<< (n + 1) = b >>> (n + 1) <<< (n + 1)) :
    rx.consumeBits k (lowBits b (n + 1)) = { rx with acc := b, bitCount := 8 }.completeByte k := by
  induction n generalizing rx with
  | zero =>
    have hbyte : (rx.shiftBit (b.getLsbD 0)).acc = b := by simpa using shiftBit_acc_shiftLeft hacc
    have hfull : rx.shiftBit (b.getLsbD 0) =
        { rx with acc := (rx.shiftBit (b.getLsbD 0)).acc, bitCount := rx.bitCount + 1 } := rfl
    rw [lowBits, consumeBits_cons, consume_of_data_of_count_eq hs hcount (bitSymbol_zero_or_one _),
      decide_bitSymbol_eq_one, hfull, hbyte, hcount]
    rfl
  | succ n ih =>
    have hle : rx.bitCount.toNat ≤ 6 := by
      rw [hcount, BitVec.toNat_ofNat]
      omega
    have hnext : rx.bitCount + 1 = BitVec.ofNat 8 (7 - n) := by
      rw [hcount, show 7 - n = 7 - (n + 1) + 1 by omega]
      exact (BitVec.ofNat_add _ 1).symm
    rw [lowBits, consumeBits_cons, consume_of_data_of_count_le k hs hle (bitSymbol_zero_or_one _),
      decide_bitSymbol_eq_one]
    exact ih hs (by omega) hnext (shiftBit_acc_shiftLeft hacc)

end

/-- From a byte boundary the eight symbols of a byte complete it. -/
theorem execAll_byteSymbols {s : State} (b : Byte) (t : U32) (hs : s.rx.state = .data)
    (hcount : s.rx.bitCount = 0) :
    execAll ([7, 6, 5, 4, 3, 2, 1, 0].map fun j => if b.getLsbD j then .symOne t else .symZero t) s =
      .next { s with
        rx := { s.rx with acc := b, bitCount := 8 }.completeByte s.params, result := .none } := by
  have hout : s.rx.acc <<< (7 + 1) = b >>> (7 + 1) <<< (7 + 1) := by bv_omega
  have hsymbols : ([7, 6, 5, 4, 3, 2, 1, 0].map fun j => if b.getLsbD j then .symOne t else .symZero t) =
      (lowBits b 8).map fun bit => symbolInstr t (bitSymbol bit) := by
    simp only [lowBits, List.map_cons, List.map_nil, symbolInstr_bitSymbol]
  rw [hsymbols, ← ReceiveEngine.consumeBits_lowBits_of_data (n := 7) s.params hs (by omega) hcount hout]
  exact execAll_symbolInstr_of_bits t _ _ s

/-- Settles O21: the completed byte is stored, or finds the buffer full. -/
theorem dataShiftsInAWholeByte : Obligations.DataShiftsInAWholeByte := by
  intro s b t hs hcount
  rw [execAll_byteSymbols b t hs hcount]
  rcases ReceiveEngine.completeByte_cases s.params { s.rx with acc := b, bitCount := 8 } with
    ⟨hfull, heq⟩ | ⟨hroom, heq⟩ <;> rw [heq]
  · exact ⟨fun hroom => absurd hfull hroom, fun _ => rfl⟩
  · exact ⟨fun _ => rfl, fun hfull => absurd hfull hroom⟩

end Sys2Proof.Machine
end

section
/-!
PROOF. Every instruction has a next state (60_exceptions.md R240): the one fault of an instruction is that of
`rx_execute` on a packet too short for a command, and the invariant lets no such packet into the queue.
-/

namespace Sys2Proof.Machine

section

variable {s : State}

/-- A packet in the queue holds a command (42_receive_engine.md R127, R135). -/
theorem State.Inv.four_le_length_of_front (h : s.Inv) (hmin : 4 ≤ s.params.pktMin) :
    ∀ p ∈ s.rx.queue.head?, 4 ≤ p.length := fun p hp => by
  obtain ⟨hlength, -, -⟩ := h.rx.queueValid p (List.mem_of_head? hp)
  exact hmin.trans hlength

/-- Every operation completes where the front packet, if there is one, holds a command. -/
theorem exec_operation_completes {i : Instr} (hl : i.layer = .operation)
    (hfront : ∀ p ∈ s.rx.queue.head?, 4 ≤ p.length) : ∃ t, exec i s = .next t := by
  cases i with
  | rxReceive u => exact ⟨_, execRxReceive_eq u s⟩
  | rxExecute =>
    obtain ⟨t, hexec, -⟩ := execRxExecute_frame hfront
    exact ⟨_, hexec⟩
  | arbRespond pos => exact ⟨_, execArbRespond_eq pos s⟩
  | reset _ _ | classify _ _ | ackDuration _ _ | crc8Next _ _ | crc32Next _ _ | crc32Value _ | rxActive
  | entryWrite _ _ | txInit _ | txSetTransferRate _ | txPacket _ | txTransmit => exact ⟨_, rfl⟩
  | _ => simp [Instr.layer] at hl

/-- A symbol, a position code and a rate code complete from every state. -/
theorem exec_completes_of_layer {i : Instr} (hpacket : i.layer ≠ .packet) (hop : i.layer ≠ .operation)
    (s : State) : ∃ t, exec i s = .next t := by
  cases i with
  | symZero _ | symOne _ | symAckreq _ | symInvalid _ => exact ⟨_, rfl⟩
  | posReadBit _ | posReadComplement _ | posPruneSet _ | posPruneClear _ | posNewRound | posNoop _ =>
    exact ⟨_, rfl⟩
  | rateFallback | rateFast | rateMedium | rateSlow | rateDefault => exact ⟨_, rfl⟩
  | _ => simp [Instr.layer] at hpacket hop

end

/-- Settles O60: layer by layer. -/
theorem everyInstructionCompletes : Obligations.EveryInstructionCompletes := by
  intro i s hinv hmin
  cases hl : i.layer with
  | packet =>
    obtain ⟨t, hexec, -⟩ := exec_packet_frame hl s
    exact ⟨_, hexec⟩
  | operation => exact exec_operation_completes hl (hinv.four_le_length_of_front hmin)
  | edge | position | rate => exact exec_completes_of_layer (by simp [hl]) (by simp [hl]) s

end Sys2Proof.Machine
end

section
/-!
PROOF. The block at rest and after reset: with nothing issued a step parks it (70_reset_and_hazards.md R279),
and `reset` constructs each component for itself, so that the order of the components is of no account (R270).
-/

namespace Sys2Proof.Machine

/-! ### Nothing issued -/

theorem State.fetch_of_requests_nil {s : State} (h : s.requests = []) : s.fetch = none := by
  simp only [State.fetch, h]

theorem step_of_fetch_none {s : State} (h : s.fetch = none) : step s = .next s := by
  simp only [step, h]

/-- Settles O5: there is nothing to fetch. -/
theorem stalledBusLeavesTheStateParked : Obligations.StalledBusLeavesTheStateParked := fun _ hreq =>
  step_of_fetch_none (State.fetch_of_requests_nil hreq)

/-! ### Resets in sequence -/

/-- The state after the reset of one scope. -/
def State.afterReset (a : ResetArgs) (s : State) : ResetScope → State
  | .all => (((s.resetReceive a).resetTransmit a).resetEntry a).done .none
  | .receive => (s.resetReceive a).done .none
  | .transmit => (s.resetTransmit a).done .none
  | .entry => (s.resetEntry a).done .none

theorem exec_reset (sc : ResetScope) (a : ResetArgs) (s : State) :
    exec (.reset sc a) s = .next (s.afterReset a sc) := by
  cases sc <;> rfl

/-- Two resets under the same arguments commute: where both write a field, they write the same value. -/
theorem State.afterReset_right_comm (a : ResetArgs) (s : State) (x y : ResetScope) :
    (s.afterReset a x).afterReset a y = (s.afterReset a y).afterReset a x := by
  cases x <;> cases y <;> rfl

theorem State.foldl_afterReset_components (a : ResetArgs) (s : State) :
    [ResetScope.receive, .transmit, .entry].foldl (State.afterReset a) s = s.afterReset a .all := rfl

theorem execAll_reset (a : ResetArgs) (l : List ResetScope) (s : State) :
    execAll (l.map fun sc => .reset sc a) s = .next (l.foldl (State.afterReset a) s) := by
  induction l generalizing s with
  | nil => rfl
  | cons sc l ih => rw [List.map_cons, execAll_cons_of_next (exec_reset sc a s), ih, List.foldl_cons]

/-- Settles O52: a run of resets folds their effects, a fold of commuting effects does not see the order of
the list, and in the order of the definition the three components make up the reset of all. -/
theorem resetOneByOneIsResetAll : Obligations.ResetOneByOneIsResetAll := by
  intro s a l hperm
  have hfold : l.foldl (State.afterReset a) s = s.afterReset a .all :=
    (hperm.foldl_eq' (fun x _ y _ t => t.afterReset_right_comm a x y) s).trans
      (s.foldl_afterReset_components a)
  rw [execAll_reset, hfold, exec_reset]

/-! ### The state after reset -/

/-- Settles O53: what `reset` writes (O51) stands in the state after reset already. -/
theorem resetStateIsConstructed : Obligations.ResetStateIsConstructed :=
  resetGivesEveryElementItsValue State.reset Config.construction

end Sys2Proof.Machine
end
